-- ==== Sys2Proof/Word.lean ====
section
/-!
DEFINITION. Sys2Proof/Word.lean: the words of the HX-9620 (R3: every register is 64 bits wide; memory is
bytes, little-endian), and the two shapes of operand that many commands share: which thread, and one packet.
-/
namespace Sys2Proof

/-- One 64-bit register word or descriptor word (R3, R6). -/
abbrev W64 := BitVec 64

/-- One 32-bit word: an instruction (R212), an FP32 pattern (R46), an accumulator element (R119). -/
abbrev W32 := BitVec 32

/-- One byte of memory. -/
abbrev Byte := BitVec 8

/-- A physical fold F000–F335 (chapter Scope, Names). -/
abbrev FoldNo := Fin 336

/-- A hardware thread: physical fold, core, thread (R206). -/
structure Tid where
  fold : FoldNo
  core : Fin 8
  thr  : Fin 8
  deriving DecidableEq, Repr

/-- One Drove Link packet: the four header words of R343 and the body bytes. -/
structure Packet where
  w0   : W64
  w1   : W64
  w2   : W64
  w3   : W64
  body : List Byte
  deriving DecidableEq, Repr

end Sys2Proof
end

