-- ==== Sys2Proof/Syntax.lean ====
section
/-!
DEFINITION. Sys2Proof/Syntax.lean: the 239 commands, one constructor per row of spec/opcode_table.json. The rows
give no operands; the operands here are what the rule named with each needs to say which thing it happens to.
`who` is the agent number of the requester (R13): 1 the host, 2 the shepherd, 3 the security core, 1024 + 8f + c a
core. Bool and list operands that name an outcome (a signature that checks, lines a cache evicts, errors a scrub
meets) are the environment's.
-/
namespace Sys2Proof

/-- One flash slot as the security core reads it (R647, R648): header and component entries, settings words, the
outcomes of the signature checks, and the owner certificate's permission. -/
structure FlashSlot where
  hdr       : List W64
  entries   : List (List W64)
  settings  : List W64
  rootOk    : Bool           -- the root public key's digest matches the ROM's
  ownerOk   : Bool
  compsOk   : List Bool
  settingOk : Bool
  permDebug : Bool
  deriving DecidableEq, Repr

/-- A request over the JTAG path: its word, and the 4 KiB block buffer as loaded with it (R589). -/
structure JtagReq where
  word : W64
  buf  : List Byte
  deriving DecidableEq, Repr

/-- An error that a scrub meets: the unit of a stack or the 8-byte word of a fold store, by number, and whether it can be
corrected (R267). -/
structure UnitErr where
  unit : Nat
  corr : Bool
  deriving DecidableEq, Repr

/-- An error that a fold takes: in a word of its store, or a parity error of a line of its caches (0–7 the L1D of a core,
8–15 its L1I, 16 the fold cache). -/
inductive FoldErr where
  | word (unit : Nat) (corr : Bool)
  | line (cache addr : Nat)
  deriving DecidableEq, Repr

/-- A request to configuration space (R480). -/
inductive CfgReq where
  | read (dword : Nat)
  | write (dword : Nat) (v : W32)
  deriving DecidableEq, Repr

/-- The mean draw of a window of R563, of 1,000,000 ticks or, where `short`, of 100,000. -/
structure MeanDraw where
  short : Bool
  watts : Nat
  deriving DecidableEq, Repr

/-- How the I3C target is given a dynamic address (R684). -/
inductive I3cAssign where
  | setdasa (a : Fin 128)
  | entdaa (a : Fin 128)
  deriving DecidableEq, Repr

/-- The commands of the block. -/
inductive Instr where
  -- control-core instructions (R214): the thread and its instruction word
  | alu (t : Tid) (w : W32)
  | addi (t : Tid) (w : W32)
  | andi (t : Tid) (w : W32)
  | ori (t : Tid) (w : W32)
  | xori (t : Tid) (w : W32)
  | shi (t : Tid) (w : W32)
  | lui (t : Tid) (w : W32)
  | ldpc (t : Tid) (w : W32)
  | cmp (t : Tid) (w : W32)
  | cmpi (t : Tid) (w : W32)
  | pred (t : Tid) (w : W32)
  | ldz (t : Tid) (w : W32)
  | lds (t : Tid) (w : W32)
  | sto (t : Tid) (w : W32)
  | amo (t : Tid) (w : W32)
  | br (t : Tid) (w : W32)
  | call (t : Tid) (w : W32)
  | jr (t : Tid) (w : W32)
  | spawn (t : Tid) (w : W32)
  | halt (t : Tid) (w : W32)
  | yield (t : Tid) (w : W32)
  | issue (t : Tid) (w : W32)
  | issueDone (t : Tid)
  | evwait (t : Tid) (w : W32)
  | evwaitTimeout (t : Tid)
  | evsig (t : Tid) (w : W32)
  | evsigr (t : Tid) (w : W32)
  | evcnt (t : Tid) (w : W32)
  | fenceF (t : Tid) (w : W32)
  | fenceD (t : Tid) (w : W32)
  | fenceI (t : Tid) (w : W32)
  | fenceDone (t : Tid)
  | mfs (t : Tid) (w : W32)
  | mark (t : Tid) (w : W32)
  -- completions a thread waits for; `evict` names lines that leave the caches; `refetch`: the fold cache's copy has taken an
  -- error that this read finds; `corrected`: the home of the address has taken one that can be corrected
  | loadDataReturn (t : Tid) (evict : List Nat) (refetch corrected : Bool)
  | instructionFetchReturn (t : Tid) (evict : List Nat) (refetch corrected : Bool)
  | storeBufferFree (f : FoldNo) (c : Fin 8)
  | amoReturn (t : Tid)
  | registerAccessDone (t : Tid)
  -- matrix engine, vector engines
  | matmulStart (f : FoldNo)
  | matmulComplete (f : FoldNo)
  | demandFetchArrive (f : FoldNo)
  | slotClr (who : Nat) (f : FoldNo) (v : W64)
  | chainStart (f : FoldNo) (c : Fin 8)
  | chainComplete (f : FoldNo) (c : Fin 8) (second : Bool)
  | codebookLoad (who : Nat) (f : FoldNo) (c : Fin 8) (v : W64)
  | codebookLoadDone (f : FoldNo) (c : Fin 8)
  -- stream engine
  | streamStart (f : FoldNo)
  | streamCredit (f : FoldNo) (k : Fin 16)
  | watchNotify (f : FoldNo) (k : Fin 16) (units : Nat)
  | sealReply (f : FoldNo) (k : Fin 16)
  | streamGateOpen (f : FoldNo) (k : Fin 16)
  | streamComplete (f : FoldNo) (k : Fin 16)
  | sendAcknowledged (f : FoldNo) (k : Fin 16)
  | gatherScatterComplete (f : FoldNo) (k : Fin 16)
  | transformComplete (f : FoldNo) (k : Fin 16)
  -- memory: the errors the scrub met that were not known before, and those that came after it had read their place
  | stackScrub (s : Fin 20) (met late : List UnitErr)
  | foldScrub (f : FoldNo) (met : List UnitErr) (late : List FoldErr)
  | rowRepair (s : Fin 20) (row : Nat)
  -- links; `vc` is the channel whose oldest received packet is performed
  | frameReceive (p : Fin 6) (fseq ack : Nat) (nak ok : Bool) (corr uncorr : Nat) (pkts : List Packet)
  | replayTimeout (p : Fin 6)
  | linkDownTimeout (p : Fin 6)
  | trainingTimeout (p : Fin 6)
  | trainingRetry (p : Fin 6)
  | linkHandshake (p : Fin 6) (ws : List W64)
  | data (p : Fin 6) (vc : Fin 4)
  | racc (p : Fin 6)
  | signal (p : Fin 6) (vc : Fin 4)
  | mailbox (p : Fin 6)
  | wake (p : Fin 6)
  | cmd (p : Fin 6)
  | readReq (p : Fin 6)
  | backupReq (p : Fin 6)
  | resend (p : Fin 6)
  | mirror (p : Fin 6)
  | share (p : Fin 6)
  | restore (p : Fin 6)
  | time (p : Fin 6)
  | timeExchange (p : Fin 6)
  | credit (p : Fin 6)
  | portReset (who : Nat) (p : Fin 6) (v : W64)
  | portDisable (who : Nat) (p : Fin 6) (v : W64)
  -- resilience
  | beatSend
  | peerLost (p : Fin 6)
  | vote (p : Fin 6)
  | global (p : Fin 6)
  | mirrorDone (p : Fin 6)
  | mirrorDoneSend
  | mirrorAck (p : Fin 6)
  | shareAck (p : Fin 6)
  | snapOwn (p : Fin 6)
  | stopRecord (p : Fin 6)
  | resumeVote (p : Fin 6)
  | resumeRecord (p : Fin 6)
  | beat (p : Fin 6)
  | pair (p : Fin 6)
  -- collective engine
  | instanceAllocate (plan : Nat)
  | reduceComplete (plan : Nat) (step : Nat)
  | backupDeadline (plan : Nat) (step : Nat)
  | reduceTimeout (plan : Nat) (step : Nat)
  -- shepherd and rebuild
  | heartbeatMiss (agent : Nat)
  | shepherdRestartTimeout
  | test (pass : Bool)
  | clear
  | map
  | portReturnTimeout (p : Fin 6)
  -- host interface
  | narrowAccess (off : Nat) (write : Bool) (v : W32)
  | registerWrite (who : Nat) (addr : Nat) (v : W64)
  | bar2Read (off len : Nat)
  | bar2Write (off : Nat) (bytes : List Byte)
  | poisonedTlp
  | configurationRequest (r : CfgReq)
  | doorbell (v : W64)
  | nop
  | configure
  | load (signed : Bool)
  | loadDone
  | start
  | pause
  | resume
  | unload
  | stage
  -- `island` as R659 names it; `answer` 0 UNABLE, 1 PREPARED, 2 REFUSED with `status`
  | stageAnswer (island : Nat) (answer : Fin 3) (status : Nat)
  | tallyRead
  | queryTensor
  | setPower
  | fuseRepair
  | warmReset
  | perstAssert
  | perstRelease
  | resultSlotRead (slot : Fin 256) (word : Fin 8) (len : Nat)
  | hstResAck (v : W64)
  | hubmReset (v : W64)
  | mbxDataWrite (who : Nat) (n : Fin 72) (v : W64)
  | mbxTake (who : Nat) (n : Fin 72)
  | mbxStsRead (who : Nat) (n : Fin 72)
  | crookRead (who : Nat) (k : Fin 32)
  | crookWrite (who : Nat) (k : Fin 32) (v : W64)
  | aspmL1Entry
  | pcieL1
  -- security; `req` is a request over SECMBX, or none for the word on private channel 65; `keyOk`: the presented root
  -- key's digest matches the ROM's; `sigOk`: the certificate's signature checks
  | getIdentity
  | getOwnerCert
  | attest (verifierNonce : List Byte)
  | nonce (req : Option JtagReq)
  | unlock (req : Option JtagReq) (keyOk sigOk : Bool)
  | lock (req : Option JtagReq)
  | debugNs (req : Option JtagReq)
  | svnCommit (req : Option JtagReq)
  | rma (req : Option JtagReq) (keyOk sigOk : Bool)
  | revoke (req : Option JtagReq) (keyOk sigOk : Bool)
  | idcode
  | samplePreload
  | extest
  | clamp
  | highz
  | secmbx
  | dap
  | bypass
  | dapAccess (write : Bool) (addr : Nat) (v : W64)
  | secBeat
  -- power and start-up
  | supplySample (mv : Int) (watts : Nat)
  | supplyLevelClear
  | orderlyStopDeadline
  | brownOut
  | powerStage (m : Fin 4)
  | coldStart
  | imageVerified (a b : FlashSlot) (flashOk : Bool)
  | startupComplete (revision : Nat)
  | mfrStep (kind : Fin 3) (value failures : Nat)
  | mfrStepAck (b0 b1 : Byte) (failures : Nat)
  | announceTimeout
  | reannounce
  | telemetry (vin iout pout failures : Nat)
  | smbalert (status failures : Nat)
  | pmbusClockTimeout
  | grazeEnter (f : FoldNo)
  | grazeExit (f : FoldNo)
  | powerEntryDone
  | timer
  | powerExit
  | powerExitDone
  | thermalThrottle (stk : Bool) (temp : Nat)
  | thermalRelease (stk : Bool) (temp : Nat)
  | thermalTrip (stk : Bool) (temp : Nat)
  | powerCapEnforce (m : MeanDraw)
  | pwrCapWrite (who : Nat) (v : W64)
  | i3cPrivateRead (len : Nat)
  | i3cPrivateWrite (bytes : List Byte)
  | dynamicAddress (a : I3cAssign)
  | flashWrite (who : Nat) (v : W64)
  | flashWriteDone (compareOk : Bool)
  -- debug
  | traceEnable (who : Nat) (die : Fin 2) (v : W64)
  | flush (who : Nat) (die : Fin 2) (v : W64)
  | rearm (who : Nat) (die : Fin 2) (v : W64)
  | trigNow (who : Nat) (die : Fin 2) (v : W64)
  | traceFreeze (die : Fin 2)
  | traceSample
  | traceSync
  | headcountTake (who : Nat) (v : W64)
  | headcountWatchdog
  | headcountCapture
  | fldPmcWrite (who : Nat) (f : FoldNo) (n : Fin 8) (v : W64)
  | fldThrFaultClear (who : Nat) (f : FoldNo) (c : Fin 8) (v : W64)
  | stkUeLogClear (who : Nat) (s : Fin 20) (v : W64)
  | resFaultClear (who : Nat) (v : W64)
  -- reads that clear
  | fldClampCntRead (who : Nat) (f : FoldNo)
  | mxaGateCntRead (who : Nat) (f : FoldNo)
  | mxaSpecCntRead (who : Nat) (f : FoldNo)
  | vecCntRead (who : Nat) (f : FoldNo) (c : Fin 8)
  | vecRowstsRead (who : Nat) (f : FoldNo) (c : Fin 8)
  | fldIssueErrRead (who : Nat) (f : FoldNo)
  | fldMemErrRead (who : Nat) (f : FoldNo)
  | stkEccCntRead (who : Nat) (s : Fin 20)
  | strErrRead (who : Nat) (f : FoldNo)
  | strDropRead (who : Nat) (f : FoldNo)
  | strWatchRead (who : Nat) (f : FoldNo)
  | strIdxRead (who : Nat) (f : FoldNo)
  | stkWatchRead (who : Nat) (s : Fin 20)
  | drvLinkCntRead (who : Nat) (p : Fin 6)
  | drvRxErrRead (who : Nat) (p : Fin 6)
  | drvRxCntRead (who : Nat) (p : Fin 6)
  | colCntRead (who : Nat)
  | colDupRead (who : Nat)
  | resCntRead (who : Nat)
  | hstCmdErrRead (who : Nat)
  | hstCntRead (who : Nat)
  | hstNarrowCntRead (who : Nat)
  | hstBoundsCntRead (who : Nat)
  | pwrSupplyRead (who : Nat)
  | pwrThermRead (who : Nat)
  | pwrRegRead (who : Nat)
  | pwrCntRead (who : Nat)
  | dbgTrcStsRead (who : Nat) (die : Fin 2)
  -- events of the board and the fuses
  | powerUp (sa : Fin 4) (sysclk : Bool)
  | equalisation (p : Fin 6) (lanes : BitVec 16)
  | fuseWriteDone (words : Nat)
  | boost (f : FoldNo) (mhz : Nat)
  | noAckStep (watts : Nat)
  | traceFlushDone (die : Fin 2)
  deriving DecidableEq, Repr

end Sys2Proof
end

