-- ==== Sys2Proof/Decode.lean ====
section
/-!
DEFINITION. Sys2Proof/Decode.lean: the host's numbering of command words. spec/opcode_table.json gives no row of this
block any bits (every row's "fields" list is empty), so no word spells a command and every word is refused.
-/
namespace Sys2Proof

/-- The command that the low `nbits` bits of `w` spell by the table: none, because the table gives no row bits
(log entry 10). -/
def decodeTableWord (_nbits _w : Nat) : Option Instr := none

end Sys2Proof
end

