-- ==== Sys2Proof/Config.lean ====
section
/-!
DEFINITION. Sys2Proof/Config.lean: the free values. Each constant is opaque: it has a type and no value that Lean can
see, so whatever is proved of the machine holds for every value.
-/
namespace Sys2Proof.Config

/-- A fresh value each time it is asked for, by the machine's own counter (State.free; log entry 6). -/
opaque freeWord : Nat → W64

/-- What an undefined accumulator element of a fold reads as (R124): fold, resets of the fold so far, element. -/
opaque undefAcc : Nat → Nat → Nat → W32

/-- What an undefined codebook entry reads as (R183): fold, resets of the fold so far, core, entry key. -/
opaque undefCb : Nat → Nat → Nat → Nat → W32

/-- What the data of a uncorrectable unit reads as (R267): address. -/
opaque damaged : Nat → Byte

/-- Island cycles that complete between two ticks on the timebase (R16, R561: stretching and boost are not fixed):
island, from, to. -/
opaque cycles : Nat → Nat → Nat → Nat

/-- Counts of the timing events of R627: event code, fold, from, to. -/
opaque pmcTiming : Nat → Nat → Nat → Nat → Nat

/-- Whether a record finds its source's trace FIFO without a free unreserved entry (R616, R621; log entry 78): die,
source, records offered before it, tick. -/
opaque fifoFull : Nat → Nat → Nat → Nat → Bool

/-- Which of the results within the bound of R187 a special function returns (log entry 14): function, argument. -/
opaque sfnPick : Nat → Nat → Nat

/-- The least argument (in the order of `ord32`) at which a monotone special function has reached a result (function code,
result in that order), where R187's bound leaves it open (R188, R191; log entry 14). -/
opaque sfnStep : Nat → Int → Int

/-- Which of the results within the bound of R197 a division returns (log entry 14): dividend, divisor. -/
opaque divPick : Nat → Nat → Nat

/-- Which of the lines of a full set of a cache leaves when another comes in (log entry 12): the line that comes, how many the
set holds. -/
opaque victim : Nat → Nat → Nat

/-- The line whose copy lies at an offset of a fold store in the fold cache's range, which the manual does not place (R249; log
entry 91): fold, offset. -/
opaque fcLineAt : Nat → Nat → Nat

/-- The bank of a stack in which a row lies (R273; the manual gives no row address map): stack, row. -/
opaque dramBank : Nat → Nat → Nat

/-- DEVICE_ID, which the device derives from its fuses (R586). -/
opaque deviceId : W64

/-- What the partner writes into the pairing area (R430 gives its contents, not its layout; log entry 30): field, area
contents, entry. Fields: 0 size and 1 class of the partner's entry, 4 and 5 where the partner keeps the copies of this
device's entry. -/
opaque pairField : Nat → List Byte → Nat → Nat

/-- The bytes in which sizes and classes (section 0) or copy addresses (section 1) are written (log entry 30). -/
opaque pairByte : Nat → List Nat → Nat → Byte

/-- Where another holder keeps the stripe slots, how many bytes a slot has, and where the restore area lies (R430, R442 name
them and give no addresses; log entry 36). `stripeBase` and `stripeSize`: job, holder, owner, slot. The others: job. -/
opaque stripeBase : W64 → Nat → Nat → Nat → Nat
opaque stripeSize : W64 → Nat → Nat → Nat → Nat
opaque restoreBase : W64 → Nat
opaque restoreSize : W64 → Nat

/-- Addresses of a replaced partner's tally (what 0) and entries' buffers (what 1 and 2: buffers 0 and 1), which its
holder writes in the fill of R468 (log entry 37). -/
opaque partnerAddr : Nat → Nat → Nat

/-- Whether the partner's entry holds its committed value in buffer 1 (R418 by the partner's own image, which no packet
tells; log entry 38): job, entry, step after the last global commit. -/
opaque partnerHeld : W64 → Nat → Nat → Bool

/-- The SCALE of the compressed record of a non-finite chunk (R398, R400; log entry 33): plan, step, chunk. -/
opaque nonfinScale : Nat → Nat → Nat → W32

/-- What HST_STS.STATE reads from a reset until it first reads OFFLINE (R482, R641; log entry 45): the time. -/
opaque startState : Nat → Nat

/-- The digest of a change block that partners exchange, and the word that answers it PREPARED (R658; log entry 98). -/
opaque stageDigest : List (W64 × W64) → W64
opaque stagePrepared : W64 → W64

/-- Where in its section a fold in Rest or Deep writes its state code (R631; log entry 49). -/
opaque headcountAt : Nat

/-- Configuration space where R480, R481 and R483 do not fix it: dword, what the host last wrote there (log entry 97). -/
opaque cfgSpace : Nat → W32 → W32

/-- The bus and device characteristics bytes of the I3C target (R684 gives the ID alone; log entry 97). -/
opaque i3cChar : Nat → Byte

/-- The first dword of a capability of R480 (0 PCI Express, 1 MSI-X, 2 AER, 3 DOE), which the manual does not place. -/
opaque capAt : Nat → Nat

/-- The bytes of a section of a headcount snapshot (R633 gives a section's contents, not its layout; log entry 49):
section (0 hub, 1 + p port p, 16 + s base die s, 64 + f fold f, 1000 word 2 of the header), its contents, offset in the section. -/
opaque headcountByte : Nat → List Nat → Nat → Byte

/-- What a read of an offset that holds no register, in a populated register window, returns (log entry 50): place. -/
opaque noRegister : Nat → W64

/-- Bytes that keys and hashes make (R577, R585, R586, R599; log entry 15): kind (0 identity public key, 1 debug public
key, 2 owner certificate, 3 measurement, 4 signature), what it is of, byte. -/
opaque cryptoByte : Nat → Nat → Nat → Byte

end Sys2Proof.Config
end

