-- ==== Sys2Proof/Machine/Bits.lean ====
section
/-!
DEFINITION. Sys2Proof/Machine/Bits.lean: bit fields of words, little-endian bytes, saturating counters and
the sparse maps in which the state holds many like things with a default.
-/
namespace Sys2Proof.Machine

/-! ### Bit fields (bit ranges are written high:low; chapter Scope, Names) -/

/-- The field of width `len` at bit `lo`, as a number. -/
def fld (w : BitVec n) (lo len : Nat) : Nat := (w.toNat >>> lo) % 2 ^ len

/-- One bit. -/
def bit (w : BitVec n) (i : Nat) : Bool := w.getLsbD i

/-- The word with the field of width `len` at bit `lo` holding `v` (its low `len` bits). -/
def setFld (w : W64) (lo len v : Nat) : W64 :=
  let mask := BitVec.ofNat 64 ((2 ^ len - 1) <<< lo)
  (w &&& ~~~mask) ||| BitVec.ofNat 64 ((v % 2 ^ len) <<< lo)

/-- A field placed at bit `lo` of an otherwise zero word. -/
def put (lo len v : Nat) : W64 := BitVec.ofNat 64 ((v % 2 ^ len) <<< lo)

/-- A Bool as a bit. -/
def b2n (b : Bool) : Nat := if b then 1 else 0

/-- A count that saturates at its field's largest value. -/
def satAdd (len a b : Nat) : Nat := min (a + b) (2 ^ len - 1)

/-- Add `v` to the field of width `len` at `lo`, saturating. -/
def bumpFld (w : W64) (lo len v : Nat) : W64 := setFld w lo len (satAdd len (fld w lo len) v)

/-- Sign extension of the low `len` bits of a number, as an integer. -/
def sext (len v : Nat) : Int :=
  let x := v % 2 ^ len
  if 2 ^ (len - 1) ≤ x then (x : Int) - 2 ^ len else x

/-- An integer modulo 2^len, as a number. -/
def wrapNat (len : Nat) (i : Int) : Nat := (i % (2 ^ len : Int)).toNat

/-! ### Little-endian bytes -/

/-- The number the bytes spell, the first byte least significant. -/
def leNat : List Byte → Nat
  | [] => 0
  | b :: bs => b.toNat + 256 * leNat bs

/-- The first `n` bytes of a number, least significant first. -/
def leBytes : Nat → Nat → List Byte
  | 0, _ => []
  | n + 1, v => BitVec.ofNat 8 v :: leBytes n (v / 256)

/-- Bytes cut into 64-bit words. -/
def leWords : Nat → List Byte → List W64
  | 0, _ => []
  | n + 1, bs => BitVec.ofNat 64 (leNat (bs.take 8)) :: leWords n (bs.drop 8)

/-- Words laid out as bytes. -/
def wordsBytes (ws : List W64) : List Byte := ws.flatMap fun w => leBytes 8 w.toNat

/-- Word `i` of a list of words, zero where there is none. -/
def wd (ws : List W64) (i : Nat) : W64 := ws.getD i 0#64

/-! ### Sparse maps: a key that is not listed holds the default -/

/-- A list of (key, value) pairs, keys strictly rising, no value equal to the default. -/
abbrev SMap (α : Type) := List (Nat × α)

/-- The value at a key. -/
def SMap.get (d : α) : SMap α → Nat → α
  | [], _ => d
  | (k, v) :: m, i => if k = i then v else SMap.get d m i

/-- The map without a key. -/
def SMap.drop : SMap α → Nat → SMap α
  | [], _ => []
  | (k, v) :: m, i => if k = i then SMap.drop m i else (k, v) :: SMap.drop m i

/-- Insert in key order (the key is not listed). -/
def SMap.ins : SMap α → Nat → α → SMap α
  | [], i, a => [(i, a)]
  | (k, v) :: m, i, a =>
    if i < k then (i, a) :: (k, v) :: m
    else if i = k then (i, a) :: m
    else (k, v) :: SMap.ins m i a

/-- The map with a key holding a value; the default is not listed. -/
def SMap.set [DecidableEq α] (d : α) (m : SMap α) (i : Nat) (a : α) : SMap α :=
  if a = d then SMap.drop m i else SMap.ins m i a

/-- Change the value at a key. -/
def SMap.upd [DecidableEq α] (d : α) (m : SMap α) (i : Nat) (f : α → α) : SMap α :=
  SMap.set d m i (f (SMap.get d m i))

/-- The map with every value changed; values that become the default are not listed. -/
def SMap.remap [DecidableEq α] (d : α) (m : SMap α) (g : Nat → α → α) : SMap α :=
  m.foldr (fun x r => SMap.set d r x.1 (g x.1 x.2)) []

/-- Insert a number into a rising list without repeats. -/
def insNat : List Nat → Nat → List Nat
  | [], i => [i]
  | k :: m, i => if i < k then i :: k :: m else if i = k then k :: m else k :: insNat m i

/-- The numbers from `a` to `b`. -/
def rangeFrom (a b : Nat) : List Nat := (List.range (b + 1 - a)).map (· + a)

/-- Replace element `i` of a list. -/
def setAt (l : List α) (i : Nat) (a : α) : List α := l.set i a

/-- The first index below `n` at which a test holds. -/
def firstIdx (n : Nat) (p : Nat → Bool) : Option Nat := (List.range n).find? p

end Sys2Proof.Machine
end

