-- ==== Sys2Proof/Machine/State.lean ====
section
/-!
DEFINITION. Sys2Proof/Machine/State.lean: everything the spec gives the HX-9620, as plain data, and the machine
right after a COLD reset. INVENTORY.md lists every register with the rule that names it. Registers whose fields are
views of other state (queue depths, half and thread states, counts of waiters) are computed by
Machine/Views.lean.
-/
namespace Sys2Proof.Machine

/-- Why the machine stops. -/
inductive Fault where
  /-- SUPPLY_SAMPLE of an input beyond the absolute maximum ratings of R672: "no statement of this manual then
  holds". Safe: nothing is claimed of the device beyond that point. -/
  | beyondAbsoluteMaximum
  deriving DecidableEq, Repr

/-- Why a command has no meaning. -/
inductive Refusal where
  /-- Raised by exec's arms for a command that is not modelled yet. Safe. -/
  | notModelled (mnemonic : String)
  deriving DecidableEq, Repr

/-! ### Control cores (chapter 07) -/

/-- Thread state codes (R240). -/
inductive ThSt where
  | idle | ready | running | waitMem | waitEvent | waitIssue | waitFence | faulted
  deriving DecidableEq, Repr

/-- What a thread that gave up its core waits for (R210). -/
inductive Wait where
  | none
  /-- a load the L1D did not serve: address, bytes, destination, sign extension -/
  | load (addr size rd : Nat) (signed : Bool)
  /-- a store that found the store buffer full -/
  | store (addr size : Nat) (val : W64)
  /-- an AMO: address, function, operand, compare value, destination -/
  | amo (addr fn : Nat) (val cmp : W64) (rd : Nat)
  /-- a register-space access: address, destination of a read or value of a write -/
  | regRead (addr rd : Nat)
  | regWrite (addr : Nat) (val : W64)
  /-- an ISSUE: descriptor address, the E-format bits 11:0, destination -/
  | issue (addr efld rd : Nat)
  /-- an EVWAIT: slot, counts, destination, the tick it began and the tick at which it times out -/
  | event (slot n rd since : Nat) (deadline : Option Nat)
  /-- the line of the instruction at its PC -/
  | fetch
  /-- a fence: 0 FENCE.F, 1 FENCE.D -/
  | fence (kind : Nat)
  deriving DecidableEq, Repr

/-- One hardware thread (R206). g0 and p0 are not stored: R207 fixes what they read. -/
structure Thread where
  st   : ThSt := .idle
  pc   : BitVec 48 := 0
  g    : SMap W64 := []
  p    : BitVec 8 := 0
  wait : Wait := .none
  deriving DecidableEq, Repr

/-- One store-buffer entry (R210). -/
structure SbEntry where
  thr  : Nat
  addr : Nat
  size : Nat
  val  : W64
  deriving DecidableEq, Repr

/-- One 64-byte line of an L1D or of the fold cache, with the epoch of its fill (R245, R263); `bad`: it has taken an error
that a read of it would find (R268). -/
structure CLine where
  addr  : Nat
  epoch : Nat
  data  : List Byte
  bad   : Bool := false
  deriving DecidableEq, Repr

/-- An accepted descriptor: its words and those of the blocks it names, fixed at issue (R86, R222), its gate
(R223), and the stochastic-rounding context captured with a chain (R184). -/
structure Issued where
  core   : Nat := 0
  thr    : Nat := 0
  addr   : Nat := 0
  words  : List W64 := []
  subs   : List (List W64) := []
  gate   : Option Nat := none
  ticket : Nat := 0
  srStep : W64 := 0
  srMb   : W64 := 0
  deriving DecidableEq, Repr

/-- A chain in flight, with the codebook banks that were active when it started (R170). -/
structure ChainRun where
  d     : Issued
  banks : Nat
  deriving DecidableEq, Repr

/-- A codebook load that waits or copies (R171, R172). -/
structure CbLoad where
  table   : Nat
  offset  : Nat
  copying : Bool
  deriving DecidableEq, Repr

/-- The registers of one core that software sees (chapters 02, 05, 06, 07). -/
structure CoreRegs where
  fpx      : W64 := 0
  vecCnt   : W64 := 0
  cbCtl    : W64 := 0     -- ADDR, TBL, LOST, ARMED; BUSY is cbLoad
  cbGen    : W64 := 0
  srStep   : W64 := 0
  srMb     : W64 := 0
  rowSts   : W64 := 0
  thrFault : W64 := 0
  thrFaddr : W64 := 0
  deriving DecidableEq, Repr

/-- One control core with its vector engine (R206). -/
structure Core where
  threads  : SMap Thread := []
  last     : Nat := 0
  sb       : List SbEntry := []
  l1d      : List CLine := []
  l1i      : List Nat := []
  l1iBad   : List Nat := []               -- lines of the L1I that have taken a parity error
  epoch    : Nat := 0
  chainQ   : List Issued := []
  inflight : List ChainRun := []
  tickets  : Nat := 0
  cbBanks  : Nat := 0                     -- bit t: active bank of table t
  cbData   : SMap (Option W32) := []      -- (bank × 8 + table) × 256 + entry; none: undefined (R183)
  cbLoad   : Option CbLoad := none
  regs     : CoreRegs := {}
  deriving DecidableEq, Repr

/-! ### Folds (chapters 03–09, 16) -/

/-- Accumulator half states (R120), in the codes of R142. -/
inductive HalfSt where
  | empty | filling | full | reading
  deriving DecidableEq, Repr

/-- One half of one array: state, chains reading it, whether a reader carried REL (R120). -/
structure Half where
  st      : HalfSt := .empty
  readers : Nat := 0
  rel     : Bool := false
  deriving DecidableEq, Repr

/-- A cell's weight register (R110): one weight, or two of MXFP4, as patterns, and the scale byte of an MX format. -/
structure CellReg where
  pats  : List Nat := []
  scale : Nat := 0
  deriving DecidableEq, Repr

/-- A matmul that has started: its descriptor, the mask of the groups it skips as predicted zero, the groups
whose weights it still waits for, each with whether it is a catch-up (R136, R138, R306). -/
structure MatRun where
  d       : Issued
  useSpec : Bool
  skipped : Nat
  miss    : Nat
  pending : List (Nat × Bool)
  deriving DecidableEq, Repr

/-- A valid speculation slot: nG and the mask (R133). -/
structure SpecSlot where
  nG   : Nat
  mask : Nat
  deriving DecidableEq, Repr

/-- What waits on an event slot (R227): a thread, a gated head of a queue, a stream context on its gate or on
its credit slot. -/
inductive Waiter where
  | thread (core thr n : Nat)
  | gateMxa
  | gateVec (core : Nat)
  | gateStr
  | gateCtx (ctx : Nat)
  | cred (ctx : Nat)
  deriving DecidableEq, Repr

/-- One event slot (R225): COUNT, OVF and what waits, first to begin first. -/
structure EvSlot where
  count   : Nat := 0
  ovf     : Bool := false
  waiters : List Waiter := []
  deriving DecidableEq, Repr

/-- A stream context (R282): its descriptor and where it stands. -/
structure Ctx where
  d        : Issued
  released : Nat := 0          -- pieces released and signalled
  credits  : Nat := 0          -- pieces past the ring for which a count was consumed (R291)
  gateOpen : Bool := true
  held     : Bool := false     -- EARLY data held for the gate
  watched  : List Nat := []    -- base dies that hold a watch entry (R298)
  pages    : Nat × Nat := (0, 0)
  skipMask : Nat := 0          -- groups skipped (R304)
  acked    : Nat := 0          -- pieces acknowledged (SEND)
  status   : Nat := 0
  deriving DecidableEq, Repr

/-- A demand entry (R305): slot, groups skipped, the stream's descriptor, and whether a matmul took it. -/
structure Demand where
  slot  : Nat
  mask  : Nat
  d     : Issued
  taken : Bool := false
  dies  : List Nat := []
  deriving DecidableEq, Repr

/-- The fold registers that software sees and that no other state determines. -/
structure FoldRegs where
  clampCnt : W64 := 0
  specEn   : Bool := true
  gateCnt  : W64 := 0
  specCnt  : W64 := 0
  issueErr : W64 := 0
  memErr   : W64 := 0     -- COLD domain
  strErr   : W64 := 0
  strDrop  : W64 := 0
  strWatch : W64 := 0
  strIdx   : W64 := 0
  pmcSel   : W64 := 0
  pmcThr   : W64 := 0
  pmc      : SMap W64 := []
  pmcFired : Nat := 0         -- counters that have passed their threshold since written (R628)
  pmcAt    : SMap Nat := []   -- counter: tick from which a cycle event counts
  deriving DecidableEq, Repr

/-- Power, clock and health of a fold's island (R252, R451, R552, R608). -/
structure FoldIsland where
  graze    : Bool := false
  stopped  : Bool := false
  failed   : Bool := false
  held     : List (Nat × Nat) := []  -- slot additions that wait for the clock (R230)
  ueRows   : List Nat := []      -- bank rows with an uncorrectable error since fold reset (R452)
  cycFrom  : Nat := 0            -- timebase from which the running clock counts
  cycBase  : Nat := 0            -- cycles counted before that
  boostMhz : Nat := 1500
  deriving DecidableEq, Repr

/-- One physical fold. -/
structure Fold where
  cores   : SMap Core := []
  halves  : SMap Half := []                -- array × 2 + half
  acc     : SMap (Option W32) := []        -- ((array × 2 + half) × 512 + row) × 128 + column; none: undefined
  resets  : Nat := 0                       -- fold resets, by which undefined contents are told apart
  active  : SMap CellReg := []             -- the cells' active and shadow weight registers, the same in both arrays
  shadow  : SMap CellReg := []             -- (R110, R111): cell row × 128 + column
  matQ    : List Issued := []
  matRun  : List MatRun := []
  spec    : SMap (Option SpecSlot) := []
  evt     : SMap EvSlot := []
  strQ    : List Issued := []
  arrived : List (Nat × Nat × Nat) := []   -- ISSUEs that wait for their queue, in order of arrival (R221): cycle, core, thread
  ctxs    : SMap (Option Ctx) := []
  demand  : List Demand := []
  tkMxa   : Nat := 0
  tkStr   : Nat := 0
  tkHub   : Nat := 0
  fcSize  : Nat := 0
  epoch   : Nat := 0
  fc      : List CLine := []
  regs    : FoldRegs := {}
  island  : FoldIsland := {}
  deriving DecidableEq, Repr

/-! ### Base dies (chapters 08, 09) -/

/-- A watch entry (R298): the stream's fold and context, and the stack-local pages it covers. -/
structure Watch where
  fold : Nat
  ctx  : Nat
  lo   : Nat
  hi   : Nat
  deriving DecidableEq, Repr

/-- A notification that a base die owes a watching stream (R299): the stream, the die, the stack-local page. -/
structure Note where
  fold : Nat
  ctx  : Nat
  die  : Nat
  page : Nat
  deriving DecidableEq, Repr

/-- One base die. -/
structure Die where
  eccCnt   : W64 := 0
  ueLog    : W64 := 0
  soft     : Nat := 0
  hard     : Nat := 0
  hardUsed : SMap Nat := []           -- spare rows of each bank that fused repairs use
  exhaust  : Bool := false
  rowErrs  : SMap (List Nat) := []    -- correctable units of a row since cold reset (R273)
  used     : SMap Nat := []           -- spare rows used per bank, fused and soft
  remapped : List Nat := []           -- rows moved to a spare by a soft repair
  watch    : List Watch := []
  wHigh    : Nat := 0
  wRefused : Nat := 0
  deriving DecidableEq, Repr

/-! ### Drove Link ports (chapter 10) -/

/-- Port states (R338). -/
inductive PortSt where
  | down | training | held | active | reset | disabled
  deriving DecidableEq, Repr

/-- A packet waiting to be sent or acknowledged, with the stream piece it belongs to (fold, context, piece), or
none. -/
structure TxPkt where
  pkt   : Packet
  owner : Option (Nat × Nat × Nat) := none
  deriving DecidableEq, Repr

/-- A frame sent and not yet acknowledged (R336). -/
structure Frame where
  fseq   : Nat
  pkt    : TxPkt
  sentAt : Nat
  deriving DecidableEq, Repr

/-- The registers of one port. -/
structure PortRegs where
  err     : Nat := 0
  vcCfg   : W64 := put 28 14 16128 ||| put 48 4 7 ||| put 52 4 7 ||| put 56 4 2
  tofs    : W64 := 0
  tofsAt  : W64 := 0
  linkCnt : W64 := 0
  rxErr   : W64 := 0
  rxCnt   : W64 := 0
  deriving DecidableEq, Repr

/-- One port. -/
structure Port where
  st       : PortSt := .down
  disable  : Bool := false
  width    : Nat := 0
  role     : Nat := 0
  ver      : Nat := 0
  peer     : List W64 := []            -- the partner's latest handshake; empty: none since the reset
  hsSent   : List W64 := []            -- the handshake this end sent last
  since    : Nat := 0                  -- tick at which the present state was entered
  credits  : SMap Nat := []            -- credits held, by channel
  adv      : SMap Nat := []            -- credits of the own buffer that the partner holds, by channel
  txq      : SMap (List TxPkt) := []   -- packets waiting, by channel; 4: TIME and CREDIT
  deficit  : SMap Nat := []            -- deficit counters of ACT, GRAD and RES (R349)
  turn     : Nat := 0
  unacked  : List Frame := []
  seq      : Nat := 0
  seqIn    : Nat := 0                  -- SEQ of the latest packet received
  fseqOut  : Nat := 0
  fseqIn   : Nat := 0
  nak      : Bool := false
  replays  : Nat := 0
  toDown   : Bool := false             -- the reset in progress ends in DOWN: the partner was refused (R341)
  failedAt : Option Nat := none        -- when training last failed (R338)
  decodeAt : Nat := 0
  rxq      : SMap (List Packet) := []  -- receive buffer, by channel; 4: TIME and CREDIT
  timeReq  : List W64 := []            -- t1 of TIME requests outstanding
  timeIn   : List Nat := []            -- arrival ticks of the TIME packets that wait in the receive buffer
  timeN    : Nat := 0                  -- exchanges begun in this training (R359)
  times    : List (Int × Int) := []    -- the 16 latest exchanges: twice the offset, twice the delay
  timeAt   : Nat := 0
  recAt    : Nat := 0                  -- when the last control record was delivered (R427)
  awayAt   : Option Nat := none        -- when a job port left service (R462)
  identity : Option (W64 × Nat) := none -- DEVICE_ID and RANK the job's peer had
  regs     : PortRegs := {}
  deriving DecidableEq, Repr

/-! ### Collective engine (chapter 11) -/

/-- The header of a chunk's window (R386). -/
structure Chunk where
  e       : Int
  emax    : Int := -256
  ovf     : Bool := false
  nonfin  : Bool := false
  replay  : Bool := false     -- replayed once (R391)
  entered : List Nat := []    -- slots whose contribution has been offered (GATHER)
  own     : Bool := false     -- this member's own contribution has been offered
  parts   : List Nat := []    -- RS_AG: granules whose partial sum has come
  sent    : List Nat := []    -- RS_AG: granules sent on
  finals  : List Nat := []    -- RS_AG: granules whose final sum is in
  deriving DecidableEq, Repr

/-- One window element: W96 integer and count, or pair. -/
structure WElem where
  n   : Int := 0
  cnt : Nat := 0
  hi  : W32 := 0
  lo  : W32 := 0
  deriving DecidableEq, Repr

/-- An instance of a reduce plan (R374). -/
structure Inst where
  plan    : Nat
  step    : Nat
  lfolds  : List Nat := []           -- logical folds whose READY counted
  started : Option Nat := none       -- T_START
  alloc   : Bool := false
  waiting : Bool := false            -- waits for pool space
  small   : Bool := false
  chunks  : List Chunk := []
  win     : SMap WElem := []         -- slot of the tensor
  copy    : SMap Nat := []           -- member index + 1 whose copy fills a slot (R403)
  early   : List Nat := []           -- backups whose first packet came before the deadline
  expired : Option Nat := none
  asked   : Bool := false            -- as a backup: has sent its copy
  bytes   : Nat := 0
  ovfN    : Nat := 0
  nonfinN : Nat := 0
  backup  : Nat := 0
  done    : Bool := false
  status  : Nat := 0
  released : Bool := false           -- its layer has committed, the step not yet globally: its windows are gone (R409)
  deriving DecidableEq, Repr

/-- The collective engine. -/
structure Col where
  insts     : List Inst := []
  lastErr   : Nat := 0
  small     : Nat := 1048576
  cnt       : W64 := 0
  dup       : W64 := 0
  planRec       : SMap W64 := []         -- plan × 8 + word
  deriving DecidableEq, Repr

/-! ### Resilience engine (chapter 12) -/

/-- A PROGRESS count (R423): kind, step, branch, microbatch or layer, the folds counted, the first identifiers. -/
structure Prog where
  kind   : Nat
  step   : Nat
  branch : Nat
  key    : Nat
  folds  : List Nat := []
  idx    : W64 := 0
  seed   : W64 := 0
  done   : Bool := false
  deriving DecidableEq, Repr

/-- A stripe drain of a snapshot (R443, R444). -/
structure Drain where
  step  : Nat
  begun : Bool := false
  acks  : Nat := 0
  deriving DecidableEq, Repr

/-- Rebuild phases (R463). -/
inductive RbPhase where
  | test | clear | map
  deriving DecidableEq, Repr

/-- A rebuild in progress: the logical fold, the failed physical fold, the spare. -/
structure Rebuild where
  lfold : Nat
  old   : Nat
  spare : Nat
  phase : RbPhase
  deriving DecidableEq, Repr

/-- What pairing with the mirror partner has established (R430, R435). -/
structure Pairing where
  sent     : Bool := false
  got      : Bool := false
  sizes    : Bool := false      -- the partner's entry sizes and classes have arrived
  addrs    : Bool := false      -- the partner's copy addresses have arrived
  failed   : Bool := false
  refill   : Bool := false      -- the partner is a replacement that this device is to fill (R468)
  nprot    : Nat := 0           -- the partner's NPROT
  feed     : Nat := 0
  shared   : Bool := false      -- the pair shares a feed, as found at pairing (R435)
  fillOut  : Bool := false      -- this device's fill of R432 is not yet acknowledged
  fillIn   : Bool := false      -- a fill with the partner is open (R433)
  fillEnts : List Nat := []     -- entries of the partner for which a fill of R660 is open
  fillMine : List Nat := []     -- own entries whose fill of R660 waits or is not yet acknowledged
  copies   : List (Nat × Nat × Nat × Nat) := [] -- the partner's entries kept here: entry, size, the two addresses
  mine     : List (Nat × Nat) := []             -- where the partner keeps this device's entries
  deriving DecidableEq, Repr

/-- The software-visible registers of the resilience engine. -/
structure ResRegs where
  commitDev : W64 := 0
  commitGlb : W64 := 0
  stsBits   : W64 := 0     -- FEED_SHARED, OVERRIDE, NO_SPARE, UNPROTECTED
  cnt       : W64 := 0
  snap      : W64 := 0
  fault     : W64 := 0
  tally     : W64 := 0
  orphans   : Nat := 0     -- RES_STS.ORPHANS
  kept      : W64 := 0     -- COLD domain
  keptJob   : W64 := 0     -- COLD domain
  deriving DecidableEq, Repr

/-- The resilience engine. -/
structure Res where
  regs      : ResRegs := {}
  prog      : List Prog := []
  layers    : List (Nat × Nat × Nat) := []    -- committed: step, branch, layer
  votes     : SMap (Option (Nat × Option Nat)) := []   -- by port: step and LAST_SNAP of the last VOTE
  voted     : Option Nat := none              -- step of the last VOTE sent, or committed by the root
  mirAck    : Option Nat := none              -- step of the last MIRROR_ACK received
  mirDone   : Option Nat := none              -- step of the last MIRROR_DONE sent
  devN      : Option Nat := none              -- step of the DEV_COMMIT recorded since the last resume
  lastGroup : Option Nat := none              -- last complete group snapshot
  owns      : List (Nat × Nat) := []          -- SNAP_OWN held: member, step
  drains    : List Drain := []
  owed      : List (Nat × Nat) := []          -- permits that wait for a drain: step, index in the layer table
  permitted : List (Nat × Nat) := []          -- permits added
  changed   : SMap (List (Nat × List Nat)) := [] -- entry: the change maps C_u of its latest updates, by u (R432)
  stopped   : Bool := false                   -- stopped since the last RESUME
  stopFwd   : Bool := false                   -- a STOP has been received and forwarded since then (R458)
  stopElse  : Bool := false                   -- what another device met since then may force a rollback (R445, R461)
  beatAt    : Nat := 0                        -- tick of the last BEAT (R427)
  resumeV   : List Nat := []                  -- ports whose RESUME_VOTE has come
  resumeSent : Bool := false
  rollNeed  : Bool := false                   -- what this device needs forces a rollback
  fillEnd   : Bool := false                   -- START REPLACE: the partner's part of the fill has ended
  owedStop  : List Nat := []                  -- ports not yet in service to which a STOP is owed (R471)
  tainted   : Bool := false
  failedF   : List Nat := []                  -- physical folds declared failed
  spares    : List Nat := []                  -- healthy spares, lowest first
  rebuild   : Option Rebuild := none
  rebuildQ  : List Nat := []                  -- logical folds whose rebuild waits
  noSpareR  : Bool := false                   -- RESUME completes with NO_SPARE
  lost      : List Nat := []                  -- ports whose peer is lost
  filling   : Bool := false                   -- START REPLACE: the device fills itself
  pair      : Pairing := {}
  classes   : List Nat := []                  -- effective class of each entry
  resumeAt  : Option Nat := none              -- RESUME taken, its rollback still restoring
  restoreGot : List (Nat × Nat × Nat) := []   -- units that have come back: STEP[15:0], 64 KiB unit, 64-byte unit in it
  shared    : List (Nat × Nat × Nat × Nat) := [] -- units received as a holder: owner, slot, step, unit address
  pending   : List (List W64) := []           -- tally entries that wait under R447
  deriving DecidableEq, Repr

/-! ### The loaded job (chapter 17, R650–R653) -/

/-- What LOAD keeps of a job image: the header fields and every section, and the tensor descriptors that the plans
name (R86: read once). -/
structure Job where
  hdr     : List W64              -- the eight header words
  branch  : List W64              -- section 0, W0 of each branch
  order   : List Nat              -- section 1
  folds   : List (List W64)       -- section 2
  slivers : List (W64 × W64)      -- section 3
  layers  : List (List W64)       -- section 4
  groups  : List (List Nat)       -- section 5: the ranks of each group
  ports   : List (W64 × W64)      -- section 6
  mbx     : List W64              -- section 8
  plans   : List (List W64)       -- section 9
  planSub : List (List (List W64)) -- GRAD, SUM, EF, HIST of each plan
  resil   : List W64              -- section 10
  prot    : List (List W64)       -- the protected tensor table
  size    : Nat
  digest  : Nat := 0              -- draw number of the measurement (an opaque value)
  deriving DecidableEq, Repr

/-! ### Host interface and mailboxes (chapter 13) -/

/-- Host states (R495). -/
inductive HostSt where
  | offline | configured | loaded | running | paused | recovering | faulted
  deriving DecidableEq, Repr

/-- An accepted command: its words, the command slot, and the AUX port it came by, if any. -/
structure Cmd where
  words : List W64
  cslot : Nat
  aux   : Option Nat := none
  started : Bool := false     -- its own checks have passed and its effect has begun
  deriving DecidableEq, Repr

/-- The software-visible registers of the HST block. -/
structure HostRegs where
  cmdErr     : W64 := 0
  cnt        : W64 := 0
  narrowCnt  : W64 := 0
  narrowAddr : W64 := 0
  boundsCnt  : W64 := 0
  bar2Base   : W64 := 0
  secBeat    : W64 := 0
  deriving DecidableEq, Repr

/-- The host interface. -/
structure HostIf where
  st       : HostSt := .offline
  ready    : Bool := false              -- STATE has read OFFLINE since the last PERST# release (R482)
  perst    : Bool := false              -- PERST# asserted
  l1       : Bool := false              -- the link is in ASPM L1
  aerErr   : W32 := 0                   -- AER's uncorrectable error status: bit 12 Poisoned TLP Received, 15 Completer Abort
  aerHdr   : Option (Nat × Nat) := none -- the read that AER logged with a Completer Abort: BAR2 offset, bytes (R491)
  cfgRegs  : SMap W32 := []             -- configuration dwords as the host last wrote them
  aspm     : Nat := 0                   -- ASPM Control of the link: bit 1 enables L1 (R483)
  doeIn    : List W32 := []             -- the object that the host is writing into the DOE mailbox
  slots    : SMap W64 := []             -- command slot × 8 + word
  taken    : SMap Nat := []             -- command slot: 1 + tick at which its FREE bit is set again; 0: free
  results  : SMap W64 := []             -- result slot × 8 + word
  seq      : Nat := 0
  queue    : List Cmd := []             -- accepted commands not yet completed, in doorbell order
  msi      : List Nat := []             -- MSI-X messages sent, latest last
  msixTab  : SMap W64 := []             -- MSI-X table, 8-byte words that depart from their reset value
  pba      : W64 := 0
  regs     : HostRegs := {}
  deriving DecidableEq, Repr

/-- One mailbox or private channel (R511). -/
structure MBox where
  word    : W64 := 0
  full    : Bool := false
  sender  : Nat := 0
  lost    : Nat := 0
  refused : Nat := 0
  deriving DecidableEq, Repr

/-- One crook register (R518). -/
structure Crook where
  owner   : Nat := 0
  ignored : Nat := 0
  deriving DecidableEq, Repr

/-- The MBX block. -/
structure Mbx where
  boxes  : SMap MBox := []
  crooks : SMap Crook := []
  whist  : List (Nat × Nat) := []   -- event-slot additions of words stored while the folds are down: box, agent
  deriving DecidableEq, Repr

/-! ### Power (chapters 14, 18) -/

/-- An announcement to the feed regulator that waits for its acknowledgement (R544). -/
structure Announce where
  seq   : Nat
  kind  : Nat
  value : Nat
  goal  : Nat        -- the granted draw, or the setpoint, it asks for
  at_   : Nat
  polled : Nat       -- tick at which MFR_STEP_ACK was last read, or the announcement's (R545)
  deriving DecidableEq, Repr

/-- Power, supply and temperature. -/
structure Pwr where
  samples  : List Int := []        -- the last four, latest first, in mV
  sampleAt : Nat := 0              -- tick of the latest sample (R535)
  filtered : Nat := 0
  vinMin   : Nat := 0xFFFF
  pIn      : Nat := 0
  level    : Nat := 0              -- 0 normal, 1 WARN, 2 INHIBIT, 3 STOP
  above    : Option Nat := none    -- tick since which the filtered supply is at or above 35.5 V
  okFrom   : Option Nat := none    -- tick since which the filtered input is at or above 36.0 V (R540)
  stopAt   : Option Nat := none    -- tick at which STOP was reached with the job running
  state    : Nat := 0              -- 0 Run, 2 Rest, 3 Deep, 4 Off
  entering : Option (Nat × Nat) := none   -- target and tick of the start
  exiting  : Option Nat := none    -- tick at which the exit started
  held     : Bool := false
  wakes    : List (Nat × Nat) := []       -- sources that raised an event, with their ticks
  reqAt    : Nat := 0              -- tick at which the pending SET_POWER started
  granted  : Nat := 0
  acked    : Nat := 0
  ann      : Option Announce := none
  retryAt  : Option (Nat × Nat × Nat) := none -- kind, goal, tick of a reannouncement (R546)
  annSeq   : Nat := 0
  lastStep : List Byte := []       -- the last MFR_STEP block sent
  stepAt   : Nat := 0              -- tick of the last step without acknowledgement (R548)
  noAck    : Bool := false
  setpoint : Nat := 0              -- millivolts asked for
  wantSet  : Nat := 0              -- millivolts configured
  pmbTx    : List (Nat × List Byte) := [] -- PMBus transactions issued, latest last
  cap      : W64 := 3800
  capped   : Nat := 0              -- how many of the four measures of R563 apply
  therm    : List Nat := []        -- groups throttled: 0 folds and hub, 1 base dies and DRAM
  thermMhz : Nat := 1500
  stackPct : Nat := 100
  trip     : Bool := false         -- THERMTRIP# asserted
  tDie     : Nat := 0
  tStack   : Nat := 0
  tDieMax  : Nat := 0
  tStackMax : Nat := 0
  wakeLast : W64 := 0
  reg      : W64 := 0
  cause    : Nat := 0
  cnt      : W64 := 0
  timer    : W64 := 0
  timerAt  : Nat := 0              -- tick at which PWR_TIMER was last written
  hotAt    : SMap Nat := []        -- group of R558: tick of its last reading above 90 degrees (R559)
  telem    : List Nat := []        -- the last READ_VIN, READ_IOUT, READ_POUT
  telemAt  : Nat := 0              -- tick of the latest telemetry (R543)
  sa       : Nat := 0              -- I3C_SA1, I3C_SA0 as sampled
  i3c      : Bool := false         -- the I3C target answers
  dynAddr  : Option Nat := none
  devIdAon : Bool := false         -- the always-on island holds DEVICE_ID of a cold start
  sysclk   : Bool := true
  deriving DecidableEq, Repr

/-! ### Security (chapter 15) -/

/-- The nonce of a request path (R594): the draw it came from and when. -/
structure PathNonce where
  draw : Nat
  at_  : Nat
  deriving DecidableEq, Repr

/-- A fuse program in progress: 1 FUSE_REPAIR, 2 SVN_COMMIT, 3 RMA, 4 REVOKE; its argument; the request word and
path it answers. -/
structure FuseJob where
  kind : Nat
  arg  : Nat
  req  : W64
  jtag : Bool
  cut  : Bool := false        -- the supply has interrupted it (R538)
  deriving DecidableEq, Repr

/-- The security core. -/
structure Sec where
  level    : Nat := 1
  svnFloor : Nat := 0
  rootRev  : Nat := 0
  debug    : Nat := 0
  opened   : Bool := false
  idReady  : Bool := false
  dbgKey   : Bool := false
  image    : Bool := false            -- image B running
  bootErr  : Nat := 0
  svns     : List Nat := []           -- SVN of the running image's components
  meas     : Nat := 0                 -- draw of the running image's measurements (opaque values)
  permDbg  : Bool := false            -- the owner certificate's PERM.DEBUG
  shepAt   : Option Nat := none       -- when the shepherd was last declared failed
  shepGone : Bool := false            -- it was not restarted in time (R456)
  hostN    : Option PathNonce := none
  jtagN    : Option PathNonce := none
  fuse     : Option FuseJob := none
  jtagRep  : W64 := 0
  replies  : List W64 := []           -- replies that wait for channel 67 to be empty (R517, R589)
  buf      : List Byte := []          -- the SECMBX block buffer
  tap      : Nat := 0x01              -- TAP instruction
  pins     : Bool := false            -- boundary scan holds the pins
  pinsWait : Bool := false            -- waits for OFFLINE (R597)
  doe      : List Byte := []          -- the last DOE response
  deriving DecidableEq, Repr

/-! ### Debug (chapter 16) -/

/-- Trace states (R638). -/
inductive TrcSt where
  | off | running | triggered | frozen | flushing
  deriving DecidableEq, Repr

/-- The trace of one compute die. -/
structure Trc where
  ctl     : W64 := 0
  spill   : W64 := 0
  trig    : W64 := 0
  st      : TrcSt := .off
  thaw    : TrcSt := .off             -- while flushing: the state the flush returns to
  err     : Nat := 0
  drops   : Nat := 0
  wseg    : Nat := 0
  tseg    : Nat := 0
  buf     : List (List W64) := []     -- records not yet in the region, oldest first
  post    : Nat := 0                  -- records still to write after a trigger
  trigSeg : Nat := 0                  -- segment of the latest TRIGGER record, which a freeze records in TSEG
  syncAt  : Nat := 0                  -- timebase bits 63:38 when every source last wrote SYNC
  enAt    : Nat := 0                  -- tick at which EN was set
  samples : Nat := 0                  -- sampling intervals since then
  pmcHeld : Bool := false
  seen    : Nat := 0                  -- records offered since the trace was enabled
  owed    : SMap (Nat × Nat × Nat) := [] -- source: records dropped and not yet told of, ticks of the first and last
  deriving DecidableEq, Repr

/-- Trace, triggers and headcount. -/
structure Dbg where
  cd0     : Trc := {}
  cd1     : Trc := {}
  hcCtl   : W64 := 0
  hcDest  : W64 := 0
  hcErr   : Nat := 0
  hcCount : Nat := 0
  hcReq   : Option (Nat × Nat) := none -- tick of the request, cause
  wdogAt  : Nat := 0                  -- tick at which RES_COMMIT_DEV last changed
  deriving DecidableEq, Repr

/-! ### Configuration and start-up (chapter 17) -/

/-- Where the start-up stands (R641, R642, R676). -/
inductive Boot where
  | noPower      -- below 30.0 V or never powered
  | aon          -- the always-on island runs and the supply is being watched
  | rom          -- the hub is released; the security core runs its ROM and verifies images
  | released     -- an image passed; self-test, clear, fill
  | warm         -- a WARM start-up is in progress
  | noImage      -- both slots failed (R646)
  | up           -- STATE has read OFFLINE
  deriving DecidableEq, Repr

/-- A staged change (R656–R659). -/
structure Staged where
  cmd      : Cmd
  tag      : Nat := 0                 -- the change block's TAG
  items    : List (W64 × W64)
  answers  : List (Nat × Nat) := []   -- island, 1 when it has prepared
  partner  : Bool := false            -- the partner has prepared
  held     : Bool := false
  holds    : Nat := 0
  target   : Nat := 0
  deriving DecidableEq, Repr

/-- A flash write in progress: slot, source page, units. -/
structure FlashJob where
  slot : Nat
  src  : Nat
  len  : Nat
  cut  : Bool := false        -- the supply has interrupted it (R538)
  deriving DecidableEq, Repr

/-- Configuration. -/
structure Cfg where
  boot     : Boot := .noPower
  bootAt   : Nat := 0
  bootReg  : W64 := 0
  settings : List W64 := []           -- the running image's settings block
  auxPort  : Option Nat := none
  fldMap   : SMap (Option W64) := []  -- entries that depart from the fuse map
  pages    : Option (SMap Nat) := none -- the job's page attribute table; none: the open attributes of R643
  keptS    : List Nat := []           -- pages the kept job's table marks S
  loading  : Option (Job × SMap Nat) := none -- a LOAD that has passed: the job and its page table
  staged   : Option Staged := none
  stageSt  : Nat := 0
  stageLast : Nat := 0
  peerWord : Option W64 := none       -- the digest that the shepherd last took from channel 70 (R658)
  flash    : W64 := 0
  flashJob : Option FlashJob := none
  deriving DecidableEq, Repr

/-! ### The machine -/

/-- What one layer of a step has found and a later layer of the same step acts on; empty between steps. -/
inductive Due where
  /-- a fault for the resilience engine: agent, status, detail, and whether the job replays (R457) -/
  | fault (agent status detail : Nat) (replay : Bool)
  /-- the shepherd declares a fold failed (R452) -/
  | foldFailed (f : Nat)
  /-- a port left service (R360) -/
  | portLeft (p : Nat)
  /-- a port entered ACTIVE -/
  | portUp (p : Nat)
  /-- a scrub reports uncorrectable units of stack memory (R272, R461) -/
  | damage
  /-- the tally has room again: a DEV_COMMIT may have waited for it (R447) -/
  | tallyRoom
  /-- a transfer has reached a fold in Graze: it wakes (R18, R552) -/
  | rouse (f : Nat)
  /-- a fold has left Graze: packets held for it are performed -/
  | awake
  /-- a port is in RESET: steps 2 to 5 of R361 -/
  | portReset (p : Nat)
  deriving DecidableEq, Repr

/-- An error of memory (R267): the address of the unit of stack memory, or of the 8-byte word of a fold store, that holds
it; whether a read corrects it; whether it has been reported. -/
structure MemErr where
  addr : Nat
  corr : Bool := false
  told : Bool := false
  deriving DecidableEq, Repr

/-- The whole block. `pending` is the queue of commands; `free` and `rdata` are the model's own (log entries 5
and 6). -/
structure State where
  now     : Nat := 0
  hubOn   : Bool := false
  mem     : List Host.Cell := []
  ue      : List MemErr := []         -- the errors that memory holds
  folds   : SMap Fold := []
  dies    : SMap Die := []
  notes   : List Note := []           -- notifications due and not yet delivered, oldest first
  ports   : SMap Port := []
  col     : Col := {}
  res     : Res := {}
  job     : Option Job := none
  host    : HostIf := {}
  mbx     : Mbx := {}
  pwr     : Pwr := {}
  sec     : Sec := {}
  dbg     : Dbg := {}
  cfg     : Cfg := {}
  free    : Nat := 0
  rdata   : List Byte := []
  due     : List Due := []
  pending : List Instr := []
  deriving DecidableEq, Repr

/-! ### Reset -/

/-- The reset value of DRV_VC_CFG (R366): RES 16,128; weights 7, 7, 2. -/
def vcCfgReset : W64 :=
  put 28 14 16128 ||| put 48 4 7 ||| put 52 4 7 ||| put 56 4 2

/-- The reset value of DBG_TRC_CTL_d (R636). -/
def trcCtlReset (d : Nat) : W64 :=
  put 2 1 1 ||| put 11 5 16 ||| put 16 4 3 ||| put 32 12 (168 * d) ||| put 44 12 (168 * d + 167)

/-- The spares of the default fuse map, lowest first (R26). -/
def fuseSpares : List Nat :=
  [160, 161, 162, 163, 164, 165, 166, 167, 328, 329, 330, 331, 332, 333, 334, 335]

/-- Right after a COLD reset (R540, R570 cause POWER_ON): every field at the value the spec states for reset; where
it states none, at the value log entries 1 to 4 and 6 name. Every structure default above is that value. -/
def State.reset : State :=
  { dbg := { cd0 := { ctl := trcCtlReset 0 }, cd1 := { ctl := trcCtlReset 1 } },
    res := { spares := fuseSpares } }

end Sys2Proof.Machine
end

