-- ==== Sys2Proof/Machine/Status.lean ====
section
/-!
DEFINITION. Sys2Proof/Machine/Status.lean: the status codes of R11 and the common checks of R7–R9.
-/
namespace Sys2Proof.Machine

/-- The device-wide status codes (R11). -/
inductive Status where
  | ok | notReady | align | bounds | overlap | version | reservedNonzero | notInState | deniedSecure | busy
  | noSpare | timeout | linkDown | feedShared | windowOverflow | unsupported | signature | supplyLow
  | drainStall | uncorrectable
  deriving DecidableEq, Repr

/-- The 8-bit code (R11). -/
def Status.code : Status → Nat
  | .ok => 0x00
  | .notReady => 0x01
  | .align => 0x02
  | .bounds => 0x03
  | .overlap => 0x04
  | .version => 0x05
  | .reservedNonzero => 0x06
  | .notInState => 0x07
  | .deniedSecure => 0x08
  | .busy => 0x09
  | .noSpare => 0x0A
  | .timeout => 0x0B
  | .linkDown => 0x0C
  | .feedShared => 0x0D
  | .windowOverflow => 0x0E
  | .unsupported => 0x0F
  | .signature => 0x10
  | .supplyLow => 0x11
  | .drainStall => 0x12
  | .uncorrectable => 0x13

/-- A list of checks in the order a chapter gives them: the status of the first that fails, else OK (R9). -/
def firstFail : List (Bool × Status) → Status
  | [] => .ok
  | (bad, st) :: rest => if bad then st else firstFail rest

/-- Run a second group of checks only when the first passed. -/
def Status.andThen (a : Status) (b : Unit → Status) : Status := if a = .ok then b () else a

/-- The common header of a descriptor (R6). -/
def hdrType (ws : List W64) : Nat := fld (wd ws 0) 0 8
def hdrVer (ws : List W64) : Nat := fld (wd ws 0) 8 4
def hdrTag (ws : List W64) : Nat := fld (wd ws 0) 32 32

/-- The common checks in the order of R9: VERSION, then the TYPE, then the reserved fields. -/
def commonChecks (ws : List W64) (types : List Nat) (reservedBad : Bool) : Status :=
  firstFail [(hdrVer ws ≠ 1, .version), (!types.contains (hdrType ws), .unsupported),
    (reservedBad, .reservedNonzero)]

end Sys2Proof.Machine
end

