-- ==== Sys2Proof/Machine/Mem.lean ====
section
/-!
DEFINITION. Sys2Proof/Machine/Mem.lean: the device address map (R39–R43), the memory as a canonical list of cells,
page attributes and who may reach which page (R256–R259, R41, R249), and what a write and an uncorrectable read do
(R255, R261, R267–R270).
-/
namespace Sys2Proof.Machine

/-! ### The memory as data -/

/-- The byte at an address; an address that is not listed reads 0 (R253; log entry 4). -/
def rdByte : List Host.Cell → Nat → Byte
  | [], _ => 0
  | (k, v) :: m, a => if k = a then v else rdByte m a

/-- Remove an address. -/
def cellDrop : List Host.Cell → Nat → List Host.Cell
  | [], _ => []
  | (k, v) :: m, a => if k = a then cellDrop m a else (k, v) :: cellDrop m a

/-- Put a byte at an address, in address order. -/
def cellIns : List Host.Cell → Nat → Byte → List Host.Cell
  | [], a, b => [(a, b)]
  | (k, v) :: m, a, b =>
    if a < k then (a, b) :: (k, v) :: m
    else if a = k then (a, b) :: m
    else (k, v) :: cellIns m a b

/-- Write one byte, keeping the canonical form. -/
def wrByte (m : List Host.Cell) (a : Nat) (b : Byte) : List Host.Cell :=
  if b = 0 then cellDrop m a else cellIns m a b

/-- The canonical form: addresses strictly rising, no listed 0. -/
def Memory.wf : List Host.Cell → Bool
  | [] => true
  | [(_, v)] => v != 0
  | (k, v) :: (k', v') :: m => v != 0 && k < k' && Memory.wf ((k', v') :: m)

/-! ### The address map (R39) -/

def interTop : Nat := 0x00F000000000
def localBase : Nat := 0x010000000000
def localSlot : Nat := 0x001000000000
def localSize : Nat := 0x000C00000000
def foldBase : Nat := 0x028000000000
def foldSlot : Nat := 0x01000000
def foldSize : Nat := 0x400000
def fregBase : Nat := 0x030000000000
def fregSlot : Nat := 0x10000
def dregBase : Nat := 0x031000000000
def dregSlot : Nat := 0x100000
def hubBase : Nat := 0x032000000000
/-- The hub blocks take 16 MiB, as in the BAR0 map (R485). -/
def hubSize : Nat := 0x1000000

/-- What an address names. -/
inductive Place where
  | inter (a : Nat)
  | stackLocal (s off : Nat)
  | store (f off : Nat)
  | foldReg (f off : Nat)
  | dieReg (s off : Nat)
  | hub (off : Nat)
  | nowhere
  deriving DecidableEq, Repr

def place (a : Nat) : Place :=
  if a < interTop then .inter a
  else if localBase ≤ a ∧ a < localBase + 20 * localSlot then
    let o := a - localBase
    if o % localSlot < localSize then .stackLocal (o / localSlot) (o % localSlot) else .nowhere
  else if foldBase ≤ a ∧ a < foldBase + 336 * foldSlot then
    let o := a - foldBase
    if o % foldSlot < foldSize then .store (o / foldSlot) (o % foldSlot) else .nowhere
  else if fregBase ≤ a ∧ a < fregBase + 336 * fregSlot then
    .foldReg ((a - fregBase) / fregSlot) ((a - fregBase) % fregSlot)
  else if dregBase ≤ a ∧ a < dregBase + 20 * dregSlot then
    .dieReg ((a - dregBase) / dregSlot) ((a - dregBase) % dregSlot)
  else if hubBase ≤ a ∧ a < hubBase + hubSize then .hub (a - hubBase)
  else .nowhere

/-- Register space. -/
def isRegSpace (a : Nat) : Bool :=
  match place a with
  | .foldReg .. | .dieReg .. | .hub .. => true
  | _ => false

/-- The rotation h of R43 for a page q within the stack. -/
def hashOf (q : Nat) : Nat :=
  let q := q % 2 ^ 24
  ((q % 32) ^^^ ((q >>> 5) % 32) ^^^ ((q >>> 10) % 32) ^^^ ((q >>> 15) % 32) ^^^ ((q >>> 20) % 16)) % 20

/-- The stack and the stack-local offset of an interleaved address (R43). -/
def stackOf (a : Nat) : Nat × Nat :=
  let p := a / 4096
  let q := p / 20
  ((p % 20 + hashOf q) % 20, q * 4096 + a % 4096)

/-- The interleaved address of a byte of a stack-local window: the inverse of `stackOf`. -/
def interOf (s off : Nat) : Nat :=
  let q := off / 4096
  (q * 20 + (s + 20 - hashOf q) % 20) * 4096 + off % 4096

/-- The one address under which a byte of memory is listed: stack memory under its interleaved address. -/
def canon (a : Nat) : Nat :=
  match place a with
  | .stackLocal s o => interOf s o
  | _ => a

/-! ### Reading and writing bytes (no checks) -/

def State.byteAt (s : State) (a : Nat) : Byte := rdByte s.mem (canon a)

def State.bytesAt (s : State) (a n : Nat) : List Byte := (List.range n).map fun i => s.byteAt (a + i)

/-- The little-endian number of `n` bytes. -/
def State.numAt (s : State) (a n : Nat) : Nat := leNat (s.bytesAt a n)

def State.wordAt (s : State) (a : Nat) : W64 := BitVec.ofNat 64 (s.numAt a 8)

/-- The eight words of a 64-byte block. -/
def State.blockAt (s : State) (a : Nat) : List W64 := (List.range 8).map fun i => s.wordAt (a + 8 * i)

/-- Put bytes into a list of cells from an address up. -/
def putBytes (m : List Host.Cell) (a : Nat) : List Byte → List Host.Cell
  | [] => m
  | b :: bs => putBytes (wrByte m (canon a) b) (a + 1) bs

/-! ### FLD_MAP (R25, R26) -/

/-- The default fuse map. -/
def fuseMap (n : Nat) : Nat := if n < 160 then n else n + 8

/-- FLD_MAP of logical fold n. -/
def State.fldMapReg (s : State) (n : Nat) : W64 :=
  match SMap.get none s.cfg.fldMap n with
  | some w => w
  | none => put 0 12 (fuseMap n)

/-- The physical fold a logical fold runs on; an adopted fold names its adopter's (R691). -/
def State.physFrom : Nat → State → Nat → Nat
  | 0, _, _ => 0xFFF
  | k + 1, s, n =>
    let w := s.fldMapReg n
    if fld w 0 12 = 0xFFF then State.physFrom k s (fld w 28 12) else fld w 0 12
def State.physOf (s : State) (n : Nat) : Nat := State.physFrom 320 s n

/-- The logical fold that runs on a physical fold. -/
def State.logicalOf (s : State) (f : Nat) : Option Nat :=
  firstIdx 320 fun n => fld (s.fldMapReg n) 0 12 == f

/-- A physical fold that FLD_MAP names and that has not been declared failed (R41). -/
def State.inService (s : State) (f : Nat) : Bool :=
  (s.logicalOf f).isSome && !(s.res.failedF.contains f)

/-! ### Folds, cores, threads -/

def State.fold (s : State) (f : Nat) : Fold := SMap.get {} s.folds f
def State.setFold (s : State) (f : Nat) (x : Fold) : State := { s with folds := SMap.set {} s.folds f x }
def State.updFold (s : State) (f : Nat) (g : Fold → Fold) : State := s.setFold f (g (s.fold f))
def State.core (s : State) (f c : Nat) : Core := SMap.get {} (s.fold f).cores c
def State.setCore (s : State) (f c : Nat) (x : Core) : State :=
  s.updFold f fun v => { v with cores := SMap.set {} v.cores c x }
def State.updCore (s : State) (f c : Nat) (g : Core → Core) : State := s.setCore f c (g (s.core f c))
def State.thread (s : State) (f c t : Nat) : Thread := SMap.get {} (s.core f c).threads t
def State.setThread (s : State) (f c t : Nat) (x : Thread) : State :=
  s.updCore f c fun v => { v with threads := SMap.set {} v.threads t x }
def State.die (s : State) (d : Nat) : Die := SMap.get {} s.dies d
def State.setDie (s : State) (d : Nat) (x : Die) : State := { s with dies := SMap.set {} s.dies d x }
def State.updDie (s : State) (d : Nat) (g : Die → Die) : State := s.setDie d (g (s.die d))
def State.port (s : State) (p : Nat) : Port := SMap.get {} s.ports p
def State.setPort (s : State) (p : Nat) (x : Port) : State := { s with ports := SMap.set {} s.ports p x }
def State.updPort (s : State) (p : Nat) (g : Port → Port) : State := s.setPort p (g (s.port p))

/-- The fold of an instruction's thread. -/
def State.foldRegs (s : State) (f : Nat) (g : FoldRegs → FoldRegs) : State :=
  s.updFold f fun v => { v with regs := g v.regs }
def State.coreRegs (s : State) (f c : Nat) (g : CoreRegs → CoreRegs) : State :=
  s.updCore f c fun v => { v with regs := g v.regs }

/-! ### Page attributes (R256, R257, R643) -/

def pgV : Nat := 1
def pgS : Nat := 2
def pgR : Nat := 4
def pgW : Nat := 8
def pgX : Nat := 16
def pgHR : Nat := 32
def pgHW : Nat := 64
def pgNC : Nat := 128

/-- The attributes of interleaved page q2. -/
def State.pageEntry (s : State) (q2 : Nat) : Nat :=
  match s.cfg.pages with
  | some m => SMap.get 0 m q2
  | none =>
    if bit s.res.regs.kept 48 && s.cfg.keptS.contains q2 then pgV + pgS + pgR + pgW
    else pgV + pgR + pgW + pgHR + pgHW

/-- Kinds of access. -/
inductive Acc where
  | read | write | fetch | hostRead | hostWrite
  deriving DecidableEq, Repr

def Acc.need : Acc → Nat
  | .read => pgR
  | .write => pgW
  | .fetch => pgX
  | .hostRead => pgHR
  | .hostWrite => pgHW

/-- Requesters that act in the secure domain (R258). -/
def secureAgent (who : Nat) : Bool := who = 2 || who = 3 || who = 4

/-- The agent numbers of R13; only these appear as an owner. -/
def agentListed (n : Nat) : Bool :=
  n ≤ 4 || (8 ≤ n && n ≤ 13) || (16 ≤ n && n ≤ 351) || (1024 ≤ n && n ≤ 3711)

/-- A number of R13 that an agent bears: 0 is none. -/
def agentNo (n : Nat) : Bool := n ≠ 0 && agentListed n

/-- The physical fold an agent number belongs to (R13). -/
def agentFold (who : Nat) : Option Nat :=
  if 16 ≤ who ∧ who ≤ 351 then some (who - 16)
  else if 1024 ≤ who ∧ who ≤ 3711 then some ((who - 1024) / 8)
  else none

/-- What one page entry says of an access (R259; where S and another attribute both forbid it, S is reported, as
R490 does for the host). -/
def entryStatus (e who : Nat) (k : Acc) : Status :=
  if e &&& pgS ≠ 0 ∧ !secureAgent who then .deniedSecure
  else if e &&& pgV = 0 ∨ e &&& k.need = 0 then .bounds
  else .ok

/-- Bytes of the fold store that the fold cache takes (R249). -/
def State.fcBytes (s : State) (f : Nat) : Nat := (s.fold f).fcSize * 262144

/-- The status of an access to bytes a … a + len − 1 (R40–R42, R249, R256–R259). Register space is no place for it. -/
def State.accStatus (s : State) (who : Nat) (k : Acc) (a len : Nat) : Status :=
  let b := a + max len 1 - 1
  match place a with
  | .inter _ =>
    if interTop ≤ b then .bounds
    else
      match (rangeStep (a / 0x200000) (b / 0x200000)).find? (fun q => entryStatus (s.pageEntry q) who k ≠ .ok) with
      | some q => entryStatus (s.pageEntry q) who k
      | none => .ok
  | .stackLocal i _ =>
    match place b with
    | .stackLocal j _ => if i = j then entryStatus (pgV + pgS + pgR + pgW) who k else .bounds
    | _ => .bounds
  | .store f o =>
    if foldSize - s.fcBytes f < o + max len 1 then .bounds
    else if !(s.inService f) && !(who = 2 || who = 3) then .bounds
    else match k with
      | .fetch => if agentFold who = some f then .ok else .bounds
      | _ => .ok
  | _ => .bounds
where
  rangeStep (x y : Nat) : List Nat := (List.range (y + 1 - x)).map (· + x)

/-- The attribute NC of the page of an address (R264). -/
def State.uncached (s : State) (a : Nat) : Bool :=
  match place a with
  | .inter x => s.pageEntry (x / 0x200000) &&& pgNC ≠ 0
  | _ => false

/-! ### Uncorrectable units (R267–R270, R280) -/

def unitOf (a : Nat) : Nat := canon a / 64 * 64

/-- What a FAULT entry says of an address (R449): its stack offset, zero outside stack memory (log entry 56). -/
def stackDetail (a : Nat) : Nat :=
  match place a with
  | .inter a => (stackOf a).2
  | .stackLocal _ o => o
  | _ => 0

/-- What an error code covers at an address (R267): an 8-byte word of a fold store, a unit of stack memory. -/
def errKey (a : Nat) : Nat :=
  match place a with
  | .store .. => a / 8 * 8
  | _ => unitOf a

/-- An uncorrectable error lies at an address. -/
def State.badAt (s : State) (a : Nat) : Bool := s.ue.any fun e => !e.corr && e.addr = errKey a

/-- The first error of a kind that a run of bytes touches. -/
def State.errIn (s : State) (p : MemErr → Bool) (a len : Nat) : Option Nat :=
  if s.ue.isEmpty then none
  else (List.range (len / 8 + 2)).findSome? fun i =>
    let x := a / 8 * 8 + 8 * i
    if x < a + len ∧ (s.ue.any fun e => p e && e.addr = errKey x) then some (errKey x) else none

/-- The first uncorrectable unit that a run of bytes touches. -/
def State.ueIn (s : State) (a len : Nat) : Option Nat := s.errIn (fun e => !e.corr) a len

/-- Put an error in, in place of what its address held. -/
def State.putErr (s : State) (e : MemErr) : State := { s with ue := s.ue.filter (·.addr ≠ e.addr) ++ [e] }

/-- Record an uncorrectable error that a base die found (R279, R280). -/
def State.dieUE (s : State) (d off agent kind : Nat) : State :=
  s.updDie d fun v =>
    let cnt := bumpFld v.eccCnt 32 16 1
    if bit v.ueLog 50 then { v with eccCnt := cnt, ueLog := bumpFld v.ueLog 56 4 1 }
    else { v with eccCnt := cnt, ueLog := put 0 36 off ||| put 36 12 agent ||| put 48 2 kind ||| put 50 1 1 }

/-- The row of unit u of a stack, as 1 KiB of stack-local offset. -/
def rowOfUnit (u : Nat) : Nat := u / 16

/-- A base die corrected unit u of its stack: counted, and noted for the repair of its row (R273, R279). -/
def State.dieCE (s : State) (d u : Nat) : State :=
  s.updDie d fun v => { v with
    eccCnt := bumpFld v.eccCnt 0 32 1, rowErrs := SMap.upd [] v.rowErrs (rowOfUnit u) (insNat · u) }

/-- Record an uncorrectable error of a fold store (R278); the second in one bank row declares the fold failed (R452). An
error that has been reported before is counted again and is no second one (log entry 91, DEDUCED). -/
def State.foldUE (s : State) (f off : Nat) (told : Bool) : State :=
  let row := off / 64
  let again := !told && (s.fold f).island.ueRows.contains row
  let s := s.updFold f fun v =>
    { v with regs := { v.regs with memErr := bumpFld v.regs.memErr 48 8 1 },
             island := { v.island with ueRows := insNat v.island.ueRows row } }
  if again then { s with due := s.due ++ [.foldFailed f] } else s

/-- Log an uncorrectable unit, wherever it lies. -/
def State.logUE (s : State) (who unit kind : Nat) : State :=
  let told := s.ue.any fun e => e.addr = unit && e.told
  let s := if told then s else { s with ue := s.ue.map fun e => if e.addr = unit then { e with told := true } else e }
  match place unit with
  | .inter a => let (d, off) := stackOf a; s.dieUE d (off / 64 * 64) who kind
  | .store f o => s.foldUE f o told
  | _ => s

/-- A read of a run of bytes corrects the errors it can and counts them (R267, R278, R279). -/
def State.corrected (s : State) (a len : Nat) : State :=
  if s.ue.isEmpty then s
  else (s.ue.filter fun e => e.corr && (s.errIn (fun x => x = e) a len).isSome).foldl (fun s e =>
    match place e.addr with
    | .inter x => let (d, off) := stackOf x; s.dieCE d (off / 64)
    | .store f _ => s.foldRegs f fun r => { r with memErr := bumpFld r.memErr 32 16 1 }
    | _ => s) s

/-- An agent consumes an uncorrectable unit: the error is logged, every begun step is tainted and the job is to stop
and replay (R269, R457). -/
def State.consumeUE (s : State) (who unit : Nat) : State :=
  let s := s.logUE who unit 0
  { s with res := { s.res with tainted := true }, due := s.due ++ [.fault who 0x13 (stackDetail unit) true] }

/-! ### Writing -/

/-- Invalidate the L1D lines of a fold's own store that a write touches (R261). -/
def invalL1D (lines : List CLine) (a len : Nat) : List CLine :=
  lines.filter fun l => !(l.addr < a + len && a < l.addr + 64)

/-- Write bytes that lie in one place, whatever the attributes; fold-store writes invalidate the fold's L1D lines and wake a
fold in Graze (R552). -/
def State.poke (s : State) (a : Nat) (bs : List Byte) : State :=
  let s := { s with mem := putBytes s.mem a bs }
  match place a with
  | .store f _ =>
    let s := if (s.fold f).island.graze then { s with due := s.due ++ [.rouse f] } else s
    if (s.fold f).cores.isEmpty then s
    else s.updFold f fun v =>
      { v with cores := v.cores.map fun (c, x) => (c, { x with l1d := invalL1D x.l1d a bs.length }) }
  | _ => s

/-- Cut a run of bytes at 64-byte units: the address and bytes of each part. -/
def unitParts : Nat → Nat → List Byte → List (Nat × List Byte)
  | 0, _, _ => []
  | _, _, [] => []
  | n + 1, a, bs =>
    let k := 64 - a % 64
    (a, bs.take k) :: unitParts n (a + k) (bs.drop k)

/-- One part of a write. What it writes whole (a unit of stack memory, a word of a fold store) is good again; a part of a
unit of stack memory is a read-modify-write: an uncorrectable one is not written and taints the step (R255, R267, R270). -/
def State.writePart (s : State) (who : Nat) (p : Nat × List Byte) : State :=
  match place p.1 with
  | .store .. =>
    { s with ue := s.ue.filter fun e => !(p.1 ≤ e.addr && e.addr + 8 ≤ p.1 + p.2.length) }.poke p.1 p.2
  | _ =>
    let u := unitOf p.1
    if p.2.length = 64 then { s with ue := s.ue.filter (·.addr ≠ u) }.poke p.1 p.2
    else if s.badAt p.1 then
      let s := s.logUE who u 1
      { s with res := { s.res with tainted := true }, due := s.due ++ [.fault who 0x13 (stackDetail u) true] }
    else (s.corrected p.1 p.2.length).poke p.1 p.2

/-- No base die holds a watch entry. -/
def State.unwatched (s : State) : Bool := s.dies.all fun x => x.2.watch.isEmpty

/-- The watch entries that cover a written page of stack memory notify their streams (R299). An entry that a demand entry
keeps (context 16 and up) has no stream left that could discard anything. -/
def State.notify (s : State) (a len : Nat) : State :=
  if s.unwatched || len = 0 then s
  else match place a with
    | .inter _ =>
      { s with notes := (rangeFrom (a / 4096) ((a + len - 1) / 4096)).foldl (fun ns p =>
          let (d, off) := stackOf (4096 * p)
          ((s.die d).watch.filter fun w => w.ctx < 16 && w.lo ≤ off / 4096 && off / 4096 ≤ w.hi).foldl (fun ns w =>
            let n : Note := ⟨w.fold, w.ctx, d, off / 4096⟩
            if ns.contains n then ns else ns ++ [n]) ns) s.notes }
    | _ => s

/-- A write of a run of bytes by an agent, unit by unit (R254, R255). -/
def State.write (s : State) (who a : Nat) (bs : List Byte) : State :=
  (if s.ue.isEmpty then s.poke a bs
   else (unitParts (bs.length / 64 + 2) a bs).foldl (fun s p => s.writePart who p) s).notify a bs.length

/-- Write whole words. -/
def State.writeWords (s : State) (who a : Nat) (ws : List W64) : State := s.write who a (wordsBytes ws)

end Sys2Proof.Machine
end

