-- ==== Sys2Proof/Machine/Trace.lean ====
section
/-!
DEFINITION. Sys2Proof/Machine/Trace.lean: trace records, segments, triggers and the fold counters (R606–R629). Whether a
record finds its FIFO full is timing: any record that R616 and R622 let be dropped may be (Config.fifoFull; log entry 78).
-/
namespace Sys2Proof.Machine

/-- The compute die of a physical fold. -/
def foldDie (f : Nat) : Nat := if f < 168 then 0 else 1
/-- The compute die that base die s attaches to. -/
def stackDie (s : Nat) : Nat := if s < 10 then 0 else 1

def State.trc (s : State) (d : Nat) : Trc := if d = 0 then s.dbg.cd0 else s.dbg.cd1
def State.setTrc (s : State) (d : Nat) (x : Trc) : State :=
  if d = 0 then { s with dbg := { s.dbg with cd0 := x } } else { s with dbg := { s.dbg with cd1 := x } }
def State.updTrc (s : State) (d : Nat) (g : Trc → Trc) : State := s.setTrc d (g (s.trc d))

/-- The trace state apart from a flush in progress. -/
def Trc.phase (t : Trc) : TrcSt := if t.st = .flushing then t.thaw else t.st

/-- Whether the die takes records now (R617, R624). -/
def Trc.accepts (t : Trc) : Bool :=
  match t.phase with
  | .running => true
  | .triggered => 0 < t.post
  | _ => false

/-- The die enters a phase; a flush in progress goes on. -/
def Trc.enter (t : Trc) (x : TrcSt) : Trc := if t.st = .flushing then { t with thaw := x } else { t with st := x }

/-- Segments of the spill region (R618, R637). -/
def Trc.segments (t : Trc) : Nat := fld t.spill 40 14 * 32
def Trc.regionBase (t : Trc) : Nat := fld t.spill 21 19 * 0x200000
def Trc.ring (t : Trc) : Bool := bit t.ctl 2
/-- The region is full and is not reused (R620). -/
def Trc.full (t : Trc) : Bool := !t.ring && t.segments ≤ t.wseg

/-- 16-byte slots of a buffered record: a record is its full stamp followed by its words. -/
def recSlots (r : List W64) : Nat := (r.length - 1) / 2

/-- The records of the next segment and the rest. -/
def cutSegment : Nat → List (List W64) → List (List W64) × List (List W64)
  | _, [] => ([], [])
  | room, r :: rs =>
    if recSlots r ≤ room then
      let (a, b) := cutSegment (room - recSlots r) rs
      (r :: a, b)
    else ([], r :: rs)

def recKind (r : List W64) : Nat := fld (wd r 1) 0 6

/-- Write one segment of the buffer to the region (R618). -/
def State.spillSegment (s : State) (d : Nat) : State :=
  let t := s.trc d
  let (seg, rest) := cutSegment 4092 t.buf
  if seg.isEmpty then s
  else if t.full then
    s.setTrc d { t with buf := rest, drops := satAdd 32 t.drops seg.length }
  else
    let a := t.regionBase + (t.wseg % max t.segments 1) * 65536
    let dropped := (seg.filter fun r => recKind r = 4).foldl (fun n r => n + fld (wd r 2) 0 32) 0
    let hdr := [put 0 32 t.wseg ||| put 32 1 d, wd (seg.headD []) 0, put 0 16 seg.length,
      BitVec.ofNat 64 dropped, 0, 0, 0, 0]
    let body := seg.flatMap (·.drop 1)
    let at_ := if seg.any fun r => recKind r = 5 then t.wseg else t.trigSeg
    (s.write 0 a (wordsBytes (hdr ++ body))).setTrc d
      { t with buf := rest, wseg := (t.wseg + 1) % 2 ^ 32, trigSeg := at_ }

/-- Write the whole buffer to the region. -/
def State.spillAll : Nat → State → Nat → State
  | 0, s, _ => s
  | n + 1, s, d => if (s.trc d).buf.isEmpty then s else State.spillAll n (s.spillSegment d) d

/-- Add a record with its stamp to the buffer of a die; a full segment goes to the region at once. -/
def State.emitAt (s : State) (d at_ kind src sub : Nat) (ps : List W64) : State :=
  let t := s.trc d
  if !t.accepts then s
  else if t.full then
    s.setTrc d { t with drops := satAdd 32 t.drops 1 }
  else
    let w0 := put 0 6 kind ||| put 6 1 (b2n (2 ≤ ps.length)) ||| put 8 12 src ||| put 20 4 sub
      ||| put 24 40 at_
    let r := BitVec.ofNat 64 at_ :: w0 :: (if 2 ≤ ps.length then [wd ps 0, wd ps 1, wd ps 2] else [wd ps 0])
    let r := if r.length % 2 = 0 then r ++ [0] else r
    let s := s.setTrc d { t with buf := t.buf ++ [r], post := if t.phase = .triggered then t.post - 1 else t.post }
    if 4092 ≤ ((s.trc d).buf.foldl (fun n r => n + recSlots r) 0) then s.spillSegment d else s

/-- A record that a full FIFO drops (R616, R621, R622): not STOP, RESUME, DROP or TRIGGER, and with LOSSLESS = 1 none of
a fold or a core. -/
def Trc.mayDrop (t : Trc) (kind src : Nat) : Bool :=
  !(2 ≤ kind && kind ≤ 5) && !(bit t.ctl 1 && (1024 ≤ src || (16 ≤ src && src < 352)))

/-- A source writes a record: it is dropped and counted when it finds its FIFO full, and a record after dropped ones
follows a DROP record and the SYNC record behind it (R615, R621; log entry 78). -/
def State.emit (s : State) (d kind src sub : Nat) (ps : List W64) : State :=
  let t := s.trc d
  if !t.accepts then s
  else
    let owed := SMap.get (0, 0, 0) t.owed src
    let s := s.setTrc d { t with seen := t.seen + 1 }
    if t.mayDrop kind src && Config.fifoFull d src t.seen s.now then
      s.updTrc d fun x => { x with
        drops := satAdd 32 x.drops 1,
        owed := SMap.set (0, 0, 0) x.owed src (owed.1 + 1, (if owed.1 = 0 then s.now else owed.2.1), s.now) }
    else if owed.1 = 0 then s.emitAt d s.now kind src sub ps
    else
      let s := s.updTrc d fun x => { x with owed := SMap.set (0, 0, 0) x.owed src (0, 0, 0) }
      let s := s.emitAt d owed.2.1 4 src 0 [put 0 32 owed.1 ||| put 32 32 (min (owed.2.2 - owed.2.1) 0xFFFFFFFF)]
      (s.emitAt d s.now 1 src 0 [BitVec.ofNat 64 s.now]).emitAt d s.now kind src sub ps

/-- The fold's clock runs. -/
def Fold.clocked (v : Fold) : Bool := !v.island.graze && !v.island.stopped && !v.island.failed

/-- The sources of a die that may write records: its base dies, the traced folds whose clocks run, their cores, and
for CD0 the hub and the ports (R610, R612, R616). -/
def State.traceSources (s : State) (d : Nat) : List Nat :=
  let c := (s.trc d).ctl
  let folds := (List.range 336).filter fun f =>
    foldDie f = d && fld c 32 12 ≤ f && f ≤ fld c 44 12 && (s.fold f).clocked
  (if d = 0 then 0x3FF :: (List.range 6).map (8 + ·) else []) ++
    (List.range 10).map (fun i => 0x3E0 + 10 * d + i) ++
    folds.flatMap fun f => (16 + f) :: (List.range 8).map fun k => 1024 + 8 * f + k

/-- Every source of a die writes a SYNC record (R615). -/
def State.syncAll (s : State) (d : Nat) : State :=
  if !(s.trc d).accepts then s
  else
  let s := s.updTrc d fun t => { t with syncAt := s.now / 2 ^ 38 }
  (s.traceSources d).foldl (fun s src => s.emit d 1 src 0 [BitVec.ofNat 64 s.now]) s

/-- Records that the class bits and fold limits of R612 admit. -/
def State.foldTraced (s : State) (f : Nat) : Bool :=
  let c := (s.trc (foldDie f)).ctl
  bit c 0 && fld c 32 12 ≤ f && f ≤ fld c 44 12

/-- The bit of DBG_TRC_CTL that enables a class: INSN 8, EVT 9, SAMPLE 10. -/
def State.coreRec (s : State) (f c t clsBit kind : Nat) (ps : List W64) : State :=
  if s.foldTraced f && bit (s.trc (foldDie f)).ctl clsBit then
    s.emit (foldDie f) kind (1024 + 8 * f + c) t ps
  else s

/-- A fold's cycle count now (R608): the count when its clock last started, and the cycles since. -/
def State.cyclesOf (s : State) (f : Nat) : Nat :=
  let i := (s.fold f).island
  if i.graze || i.stopped then i.cycBase else i.cycBase + Config.cycles f i.cycFrom s.now

/-- STOP (2) and RESUME (3) records of a fold (R609). -/
def State.foldRec (s : State) (f kind count : Nat) : State :=
  if s.foldTraced f then s.emit (foldDie f) kind (16 + f) 0 [BitVec.ofNat 64 count] else s

/-- The cycle count of a source's island (R608): a fold's for its cores; base dies, ports and the hub have counts of their
own, which nothing but their records shows. -/
def State.islandCycles (s : State) (src : Nat) : Nat :=
  match agentFold src with
  | some f => s.cyclesOf f
  | none => Config.cycles (4096 + src) 0 s.now

/-- Back from Rest or Deep every enabled source of a die writes SYNC and RESUME (R609, R623). -/
def State.resumeAll (s : State) (d : Nat) : State :=
  if !(s.trc d).accepts then s
  else
    (s.traceSources d).foldl (fun s src =>
      (s.emit d 1 src 0 [BitVec.ofNat 64 s.now]).emit d 3 src 0 [BitVec.ofNat 64 (s.islandCycles src)])
      (s.updTrc d fun t => { t with syncAt := s.now / 2 ^ 38 })

/-- The hub and the ports write to CD0. -/
def State.hubRec (s : State) (kind src : Nat) (ps : List W64) : State :=
  if bit (s.trc 0).ctl 0 then s.emit 0 kind src 0 ps else s

/-! ### Fold counters as read (R627) -/

/-- The event codes of R627. -/
def pmcCodes : List Nat :=
  [0x00, 0x01, 0x02, 0x03, 0x10, 0x11, 0x12, 0x20, 0x21, 0x30, 0x31, 0x38, 0x39, 0x40, 0x41, 0x42, 0x43, 0x44, 0x45]

/-- Events that count cycles or port grants: timing, which the manual does not fix (log entry 17). -/
def pmcTimed : List Nat := [0x01, 0x02, 0x11, 0x12, 0x21, 0x30, 0x31, 0x44, 0x45]

/-- FLD_PMC_n as read: a timed event adds what has passed since the counter was last written, unless the
counters are held. -/
def State.pmcRead (s : State) (f i : Nat) : W64 :=
  let r := (s.fold f).regs
  let w := SMap.get 0 r.pmc i
  let code := fld r.pmcSel (8 * i) 8
  if pmcTimed.contains code && !(s.trc (foldDie f)).pmcHeld then
    let sum := fld w 0 48 + Config.pmcTiming code f (SMap.get 0 r.pmcAt i) s.now
    setFld (setFld w 0 48 sum) 48 1 (b2n (bit w 48 || 2 ^ 48 ≤ sum))
  else w

/-! ### Triggers (R624, R626) -/

/-- The counters of a die's folds take what their timed events have counted so far. -/
def State.pmcLatch (s : State) (d : Nat) : State :=
  { s with folds := SMap.remap {} s.folds fun f (v : Fold) =>
    if foldDie f = d && v.regs.pmcSel ≠ 0 then
      { v with regs := { v.regs with
        pmc := (List.range 8).foldl (fun m i => SMap.set 0 m i (s.pmcRead f i)) v.regs.pmc,
        pmcAt := (List.range 8).foldl (fun m i => SMap.set 0 m i s.now) v.regs.pmcAt } }
    else v }

/-- The timed counters of a die's folds count again from now. -/
def State.pmcResume (s : State) (d : Nat) : State :=
  { s with folds := SMap.remap {} s.folds fun f (v : Fold) =>
    if foldDie f = d && v.regs.pmcSel ≠ 0 then
      { v with regs := { v.regs with
        pmcAt := (List.range 8).foldl (fun m i => SMap.set 0 m i s.now) v.regs.pmcAt } }
    else v }

/-- A trigger source would fire on a die now. -/
def State.mayFire (s : State) (d src : Nat) : Bool := (s.trc d).phase = .running && bit (s.trc d).trig src

/-- A trigger source fires on a die (R624): the TRIGGER record, then POST further records; with FREEZE_PMC the
counters hold. -/
def State.fireOn (s : State) (d src agent : Nat) : State :=
  if s.mayFire d src then
    let s := s.emit d 5 agent 0 [BitVec.ofNat 64 src]
    let s := if bit (s.trc d).ctl 5 then s.pmcLatch d else s
    s.updTrc d fun t => { t.enter .triggered with post := fld t.trig 32 32, pmcHeld := bit t.ctl 5 }
  else s

/-- A trigger on one die, which the other die may take as its source bit 7. -/
def State.fire (s : State) (d src agent : Nat) : State :=
  if s.mayFire d src then (s.fireOn d src agent).fireOn (1 - d) 7 agent else s

/-- A trigger that arises on the hub reaches both dies; each may also take the other's as its source bit 7. -/
def State.fireHub (s : State) (src : Nat) : State :=
  let a := s.mayFire 0 src
  let b := s.mayFire 1 src
  let s := (s.fireOn 0 src 0x3FF).fireOn 1 src 0x3FF
  let s := if a then s.fireOn 1 7 0x3FF else s
  if b then s.fireOn 0 7 0x3FF else s

/-! ### Fold counters (R627, R628) -/

/-- One counter moves by n; at its threshold it raises trigger source 4 once. -/
def State.pmcAdd (s : State) (f i n : Nat) : State :=
  let r := (s.fold f).regs
  let w := SMap.get 0 r.pmc i
  let old := fld w 0 48
  let sum := old + n
  let w' := setFld (setFld w 0 48 sum) 48 1 (b2n (bit w 48 || 2 ^ 48 ≤ sum))
  let thr := r.pmcThr
  let hit := bit thr 51 && fld thr 48 3 = i && old < fld thr 0 48 && fld thr 0 48 ≤ sum
    && (r.pmcFired >>> i) % 2 = 0
  let s := s.foldRegs f fun r =>
    { r with pmc := SMap.set 0 r.pmc i w', pmcFired := if hit then r.pmcFired + 2 ^ i else r.pmcFired }
  if hit then s.fire (foldDie f) 4 (16 + f) else s

/-- An event that the counters of a fold may count. -/
def State.pmc (s : State) (f code n : Nat) : State :=
  let sel := (s.fold f).regs.pmcSel
  if sel = 0 || n = 0 || (s.trc (foldDie f)).pmcHeld then s
  else (List.range 8).foldl (fun s i => if fld sel (8 * i) 8 = code then s.pmcAdd f i n else s) s

/-! ### The spill region and the headcount page (R617, R633) -/

/-- A page that the host may read and nobody but the trace and the headcount write. -/
def State.debugPage (s : State) (q : Nat) : Bool :=
  s.pageEntry q &&& (pgV + pgHR + pgW + pgS) = pgV + pgHR

def Trc.first (t : Trc) : Nat := fld t.spill 21 19
def Trc.pages (t : Trc) : Nat := fld t.spill 40 14
/-- A page lies in the region of a die. -/
def Trc.holds (t : Trc) (q : Nat) : Bool := t.first ≤ q && q < t.first + t.pages

/-- Every page of a die's region meets step 2 of R617. -/
def State.regionOk (s : State) (d : Nat) : Bool :=
  let t := s.trc d
  t.first + t.pages ≤ interTop / 0x200000 && (List.range t.pages).all fun i => s.debugPage (t.first + i)

/-- The checks of R617 with the control word that is being written. -/
def State.traceCheck (s : State) (d : Nat) (c : W64) : Status :=
  let t := s.trc d
  let o := s.trc (1 - d)
  let lo := fld c 32 12
  let hi := fld c 44 12
  firstFail [
    (fld c 16 4 = 0 || 5 < fld c 16 4 || (bit c 10 && (fld c 11 5 < 10 || 30 < fld c 11 5))
      || hi < lo || foldDie lo ≠ d || foldDie hi ≠ d || 336 ≤ hi, .bounds),
    (t.pages < 4 || 8192 < t.pages || 8192 < t.pages + o.pages || !s.regionOk d, .bounds),
    (t.holds (fld s.dbg.hcDest 21 19) || (t.first < o.first + o.pages && o.first < t.first + t.pages), .overlap),
    (t.pages * 0x200000 - 65536 < fld t.trig 32 32 * 32, .bounds)]

/-- Tracing stops because a page of the region has lost an attribute (R617). -/
def State.traceLost (s : State) (d : Nat) : State :=
  if bit (s.trc d).ctl 0 && !s.regionOk d then
    s.updTrc d fun t => { t with ctl := setFld t.ctl 0 1 0, st := .off, buf := [], err := Status.bounds.code }
  else s

/-- The destination of a headcount (R633). -/
def State.headcountPage (s : State) : Nat := fld s.dbg.hcDest 21 19
def State.headcountOk (s : State) : Bool :=
  let q := s.headcountPage
  q < interTop / 0x200000 && s.debugPage q && !(s.trc 0).holds q && !(s.trc 1).holds q

/-- A headcount is requested (R630): refused while one is in progress, and not taken without a destination. -/
def State.hcRequest (s : State) (cause : Nat) : State :=
  if s.dbg.hcReq.isSome then
    if cause = 0 then { s with dbg := { s.dbg with hcErr := Status.busy.code } } else s
  else if !s.headcountOk then { s with dbg := { s.dbg with hcErr := Status.bounds.code } }
  else { s with dbg := { s.dbg with hcReq := some (s.now, cause) } }

end Sys2Proof.Machine
end

