-- ==== Sys2Proof/Machine/Ops.lean ====
section
/-!
DEFINITION. Sys2Proof/Machine/Ops.lean: operations that many commands share: free values, MSI-X messages, thread
scheduling (R210), thread faults (R237), event slots (R225–R227), and what a read returns to its requester.
-/
namespace Sys2Proof.Machine

/-- The agent number of a core (R13). -/
def coreAgent (f c : Nat) : Nat := 1024 + 8 * f + c

/-- A fresh free value (log entry 6). -/
def State.fresh (s : State) : W64 × State := (Config.freeWord s.free, { s with free := s.free + 1 })

/-- What a completed read hands its requester (log entry 6). -/
def State.answer (s : State) (bs : List Byte) : State := { s with rdata := bs }
def State.answerWord (s : State) (w : W64) : State := s.answer (leBytes 8 w.toNat)

/-- The host state machine is RUNNING (R495). -/
def State.running (s : State) : Bool := s.host.st = .running

/-- A word of the MSI-X table after reset: every vector masked, as PCI Express has it (log entry 59). -/
def msixReset (i : Nat) : W64 := if i % 2 = 1 then put 32 1 1 else 0

/-- A word of the MSI-X table: four 32-bit words an entry, the last one's bit 0 the mask. -/
def HostIf.msix (h : HostIf) (i : Nat) : W64 := SMap.get (msixReset i) h.msixTab i

/-- Raise an MSI-X vector (R509, R510): a masked vector sets its pending bit; a table entry is four 32-bit words,
the last one's bit 0 the mask. -/
def State.raise (s : State) (v : Nat) : State :=
  let h := s.host
  if bit (h.msix (2 * v + 1)) 32 then
    { s with host := { h with pba := h.pba ||| put v 1 1 } }
  else { s with host := { h with msi := h.msi ++ [v] } }

/-- HST_BOUNDS_CNT.BOUNDS counts a host access that is refused (R40, R486, R528). -/
def State.hostRefused (s : State) (who : Nat) : State :=
  if who = 1 then { s with host := { s.host with regs := { s.host.regs with
    boundsCnt := bumpFld s.host.regs.boundsCnt 0 32 1 } } }
  else s

/-- The register window of a fold is open to a requester (R41). -/
def State.foldRegOpen (s : State) (who f : Nat) : Bool := s.inService f || who = 2 || who = 3

/-! ### Scheduling (R210) -/

/-- The first READY thread after the one that had the core last, wrapping from T7 to T0. -/
def Core.nextReady (x : Core) : Option Nat :=
  ((List.range 8).map fun i => (x.last + 1 + i) % 8).find? fun t =>
    decide ((SMap.get ({} : Thread) x.threads t).st = ThSt.ready)

/-- Some thread of the core is RUNNING. -/
def Core.busy (x : Core) : Bool := x.threads.any fun p => p.2.st = .running

/-- When no thread of the core runs, the next READY one does. -/
def Core.sched (x : Core) : Core :=
  if x.busy then x
  else match x.nextReady with
    | some t => { x with threads := SMap.upd {} x.threads t fun v => { v with st := .running } }
    | none => x

def State.sched (s : State) (f c : Nat) : State :=
  if (s.fold f).clocked then s.updCore f c Core.sched else s

/-- The running thread of a core gives it up for a reason of R210's table; SWITCH records the next thread. -/
def State.giveUp (s : State) (f c t reason : Nat) (st : ThSt) (w : Wait) : State :=
  let v := s.thread f c t
  let s := (s.setThread f c t { v with st := st, wait := w }).updCore f c fun x => { x with last := t }
  let next := match (s.core f c).nextReady with
    | some n => n
    | none => 0xF
  let s := (s.sched f c).coreRec f c t 8 0x11 [put 0 4 reason ||| put 4 4 next]
  s.pmc f 0x41 1

/-- A waiting thread becomes READY. -/
def State.wake (s : State) (f c t : Nat) : State :=
  let v := s.thread f c t
  (s.setThread f c t { v with st := .ready, wait := .none }).sched f c

/-! ### Registers of a thread (R206, R207) -/

def Thread.reg (v : Thread) (i : Nat) : W64 := if i = 0 then 0 else SMap.get 0 v.g i
def Thread.setReg (v : Thread) (i : Nat) (w : W64) : Thread :=
  if i = 0 then v else { v with g := SMap.set 0 v.g i w }
/-- p0 reads 1. -/
def Thread.pred (v : Thread) (i : Nat) : Bool := i = 0 || v.p.getLsbD i
def Thread.setPred (v : Thread) (i : Nat) (b : Bool) : Thread :=
  if i = 0 then v
  else { v with p := if b then v.p ||| BitVec.ofNat 8 (2 ^ i) else v.p &&& ~~~(BitVec.ofNat 8 (2 ^ i)) }

def State.putReg (s : State) (f c t i : Nat) (w : W64) : State :=
  s.setThread f c t ((s.thread f c t).setReg i w)

/-! ### Thread faults (R237, R238, R241, R242) -/

/-- The address of the instruction a thread is at: a thread that waits has moved past it already. -/
def Thread.faultPc (v : Thread) : BitVec 48 := if v.wait = .none || v.wait = .fetch then v.pc else v.pc - 4

/-- A thread faults: FAULTED, the first fault of the core recorded, the rest counted; a fault other than
UNCORRECTABLE stops the job for good. -/
def State.threadFault (s : State) (f c t : Nat) (cause : Status) (addr : Nat) : State :=
  let v := s.thread f c t
  let pc := v.faultPc.toNat
  let s := s.setThread f c t { v with st := .faulted, wait := .none }
  let s := s.coreRegs f c fun r =>
    if bit r.thrFault 11 then { r with thrFault := bumpFld r.thrFault 12 4 1 }
    else { r with
      thrFault := put 0 8 cause.code ||| put 8 3 t ||| put 11 1 1 ||| put 16 48 pc,
      thrFaddr := put 0 48 (if cause = .unsupported then 0 else addr) }
  let s := s.coreRec f c t 9 0x15 [put 0 8 cause.code ||| put 16 48 pc]
  let s := s.fire (foldDie f) 1 (coreAgent f c)
  let ue : Bool := cause = .uncorrectable
  let s := { s with due := s.due ++ [Due.fault (coreAgent f c) cause.code (stackDetail (if ue then unitOf addr else addr)) ue] }
  s.sched f c

/-! ### Event slots (R225–R227, R230, R691) -/

def State.slot (s : State) (f n : Nat) : EvSlot := SMap.get {} (s.fold f).evt n
def State.setSlot (s : State) (f n : Nat) (e : EvSlot) : State :=
  s.updFold f fun v => { v with evt := SMap.set {} v.evt n e }

/-- The record of an EVWAIT that ends (R239). -/
def State.evwaitRec (s : State) (f c t slot n since : Nat) (st : Status) : State :=
  s.coreRec f c t 9 0x13
    [put 0 6 slot ||| put 6 6 n ||| put 16 8 st.code ||| put 32 32 (min (s.now - since) (2 ^ 32 - 1))]

/-- Serve the threads at the front of a slot's waiters while COUNT allows; a gate at the front holds the rest. -/
def State.serve : Nat → State → Nat → Nat → State
  | 0, s, _, _ => s
  | k + 1, s, f, n =>
    let e := s.slot f n
    match e.waiters with
    | .thread c t need :: rest =>
      if need ≤ e.count then
        let s := s.setSlot f n { e with count := e.count - need, waiters := rest }
        let (rd, since) := match (s.thread f c t).wait with
          | .event _ _ rd since _ => (rd, since)
          | _ => (0, s.now)
        let s := (s.putReg f c t rd 0).evwaitRec f c t n need since .ok
        State.serve k (s.wake f c t) f n
      else s
    | _ => s

/-- Serve a slot. -/
def State.serveSlot (s : State) (f n : Nat) : State := State.serve ((s.slot f n).waiters.length) s f n

/-- An addition to a slot of a physical fold takes effect. -/
def State.evtApply (s : State) (f n amt : Nat) : State :=
  let e := s.slot f n
  let s := s.setSlot f n { e with count := min (e.count + amt) 65535, ovf := e.ovf || 65535 < e.count + amt }
  s.serveSlot f n

/-- Add to a slot; a fold in Graze takes it when its clock runs again (R230). -/
def State.evtAdd (s : State) (f n amt : Nat) : State :=
  if (s.fold f).island.graze then
    s.updFold f fun v => { v with island := { v.island with held := v.island.held ++ [(n, amt)] } }
  else s.evtApply f n amt

/-- Add to a slot of a logical fold (R25, R691). -/
def State.evtAddLogical (s : State) (n slot amt : Nat) : State := s.evtAdd (s.physOf n) slot amt

/-- Put a waiter at the end of a slot's order. -/
def State.await (s : State) (f n : Nat) (w : Waiter) : State :=
  let e := s.slot f n
  if e.waiters.contains w then s else s.setSlot f n { e with waiters := e.waiters ++ [w] }

/-- A gate or credit waiter at the front of a slot with a count: it may go. -/
def State.gateReady (s : State) (f n : Nat) (w : Waiter) : Bool :=
  let e := s.slot f n
  e.waiters.head? = some w && 1 ≤ e.count

/-- Consume one count for the waiter at the front, and serve those behind it. -/
def State.consumeGate (s : State) (f n : Nat) : State :=
  let e := s.slot f n
  (s.setSlot f n { e with count := e.count - 1, waiters := e.waiters.drop 1 }).serveSlot f n

/-- Forget a waiter. -/
def State.unwait (s : State) (f n : Nat) (w : Waiter) : State :=
  let e := s.slot f n
  (s.setSlot f n { e with waiters := e.waiters.filter (· ≠ w) }).serveSlot f n

end Sys2Proof.Machine
end

