-- ==== Sys2Proof/Machine/Formats.lean ====
section
/-!
DEFINITION. Sys2Proof/Machine/Formats.lean: number formats and arithmetic (chapter 02, R44–R84), exactly: a value
is a NaN, an infinity or (−1)^neg × m × 2^e, an operation is computed exactly and rounded once.
-/
namespace Sys2Proof.Machine

/-- A floating-point value before rounding. Zero is `m = 0` and keeps its sign (R50). -/
inductive Val where
  | nan
  | inf (neg : Bool)
  | fin (neg : Bool) (m : Nat) (e : Int)
  deriving DecidableEq, Repr

/-- Which patterns of the top exponent are special (R46). -/
inductive Special where
  | ieee      -- infinity and NaN as FP32
  | e4m3      -- no infinity; only the all-ones mantissa is NaN
  | none      -- no infinity and no NaN
  deriving DecidableEq, Repr

/-- A floating-point element format (R46). -/
structure FloatFmt where
  ebits : Nat
  mbits : Nat
  bias  : Nat
  spec  : Special
  deriving DecidableEq, Repr

def fmtFP32 : FloatFmt := ⟨8, 23, 127, .ieee⟩
def fmtBF16 : FloatFmt := ⟨8, 7, 127, .ieee⟩
def fmtFP16 : FloatFmt := ⟨5, 10, 15, .ieee⟩
def fmtE4M3 : FloatFmt := ⟨4, 3, 7, .e4m3⟩
def fmtE5M2 : FloatFmt := ⟨5, 2, 15, .ieee⟩
def fmtE3M2 : FloatFmt := ⟨3, 2, 3, .none⟩
def fmtE2M3 : FloatFmt := ⟨2, 3, 1, .none⟩
def fmtE2M1 : FloatFmt := ⟨2, 1, 1, .none⟩
/-- The internal split format of R77: 8-bit exponent, bias 127, 12-bit significand. -/
def fmtSplit : FloatFmt := ⟨8, 11, 127, .ieee⟩

def FloatFmt.width (f : FloatFmt) : Nat := 1 + f.ebits + f.mbits
/-- The exponent of the last place of a subnormal. -/
def FloatFmt.emin (f : FloatFmt) : Int := 1 - (f.bias : Int) - f.mbits
/-- Exponent field and mantissa of the largest finite value. -/
def FloatFmt.maxExp (f : FloatFmt) : Nat :=
  match f.spec with
  | .ieee => 2 ^ f.ebits - 2
  | _ => 2 ^ f.ebits - 1
def FloatFmt.maxMant (f : FloatFmt) : Nat :=
  match f.spec with
  | .e4m3 => 2 ^ f.mbits - 2
  | _ => 2 ^ f.mbits - 1

/-- The value of a pattern (R46, R47: subnormals exactly). -/
def FloatFmt.decode (f : FloatFmt) (x : Nat) : Val :=
  let mant := x % 2 ^ f.mbits
  let ex := (x >>> f.mbits) % 2 ^ f.ebits
  let neg := (x >>> (f.mbits + f.ebits)) % 2 = 1
  let top := ex = 2 ^ f.ebits - 1
  if f.spec = .ieee ∧ top then
    if mant = 0 then .inf neg else .nan
  else if f.spec = .e4m3 ∧ top ∧ mant = 2 ^ f.mbits - 1 then .nan
  else if ex = 0 then .fin neg mant f.emin
  else .fin neg (2 ^ f.mbits + mant) (f.emin + ex - 1)

/-- A signalling NaN (R49): FP32, BF16, FP16 and E5M2 only. -/
def FloatFmt.isSNaN (f : FloatFmt) (x : Nat) : Bool :=
  let mant := x % 2 ^ f.mbits
  let ex := (x >>> f.mbits) % 2 ^ f.ebits
  f.spec = .ieee && ex = 2 ^ f.ebits - 1 && mant ≠ 0 && mant < 2 ^ (f.mbits - 1)

/-- The canonical NaN (R48). -/
def FloatFmt.canonNaN (f : FloatFmt) : Nat :=
  match f.spec with
  | .ieee => ((2 ^ f.ebits - 1) <<< f.mbits) + 2 ^ (f.mbits - 1)
  | .e4m3 => 2 ^ (f.ebits + f.mbits) - 1
  | .none => 0

def FloatFmt.withSign (f : FloatFmt) (neg : Bool) (x : Nat) : Nat :=
  if neg then x + 2 ^ (f.ebits + f.mbits) else x
def FloatFmt.infPat (f : FloatFmt) (neg : Bool) : Nat :=
  f.withSign neg ((2 ^ f.ebits - 1) <<< f.mbits)
def FloatFmt.maxPat (f : FloatFmt) (neg : Bool) : Nat :=
  f.withSign neg ((f.maxExp <<< f.mbits) + f.maxMant)

/-! ### Rounding (R61, R63, R64) -/

/-- The rounding modes of RND; a stochastic rounding carries its 16-bit draw (R64). -/
inductive Rnd where
  | rne
  | rtz
  | sr (u : Nat)
  deriving DecidableEq, Repr

/-- `m / 2^sh` rounded to an integer. -/
def roundShift (r : Rnd) (m sh : Nat) : Nat :=
  let q := m >>> sh
  let rem := m % 2 ^ sh
  match r with
  | .rtz => q
  | .rne => if 2 ^ sh < 2 * rem ∨ (2 * rem = 2 ^ sh ∧ q % 2 = 1) then q + 1 else q
  | .sr u =>
    let d := if 16 ≤ sh then rem >>> (sh - 16) else rem <<< (16 - sh)
    if 65536 ≤ d + u % 65536 then q + 1 else q

/-- `m × 2^e` rounded to an integer. -/
def roundInt (r : Rnd) (m : Nat) (e : Int) : Nat :=
  if 0 ≤ e then m <<< e.toNat else roundShift r m (-e).toNat

/-- A positive `m × 2^e` on the grid of a format, before the overflow rule: exponent field and mantissa, the
exponent unbounded above (R63). -/
def FloatFmt.grid (f : FloatFmt) (r : Rnd) (m : Nat) (e : Int) : Nat × Nat :=
  if m = 0 then (0, 0) else
  let q := max (e + (Nat.log2 m : Int) + 1 - (f.mbits + 1)) f.emin
  let k := if q ≤ e then m <<< (e - q).toNat else roundShift r m (q - e).toNat
  let (k, q) := if k = 2 ^ (f.mbits + 1) then (2 ^ f.mbits, q + 1) else (k, q)
  if k < 2 ^ f.mbits then (0, k) else ((q - f.emin).toNat + 1, k - 2 ^ f.mbits)

/-- A pattern is past the largest finite value. -/
def FloatFmt.beyond (f : FloatFmt) (g : Nat × Nat) : Bool :=
  f.maxExp < g.1 || (g.1 = f.maxExp && f.maxMant < g.2)

/-! ### VEC_FPX flags (R72) -/

def fpxINVALID : W64 := 1#64
def fpxOVERFLOW : W64 := 2#64
def fpxSATURATED : W64 := 4#64
def fpxUNDERFLOW : W64 := 8#64
def fpxNANTOINT : W64 := 16#64
def fpxMXNONFINITE : W64 := 32#64

/-- The narrowing conversion of R63 to a floating-point format that is not an MX element. -/
def FloatFmt.narrow (f : FloatFmt) (r : Rnd) (sat : Bool) : Val → Nat × W64
  | .nan => (f.canonNaN, 0)
  | .inf neg =>
    if f.spec = .ieee then (f.infPat neg, 0)
    else if sat then (f.maxPat neg, fpxSATURATED)
    else (f.canonNaN, fpxINVALID)
  | .fin neg m e =>
    let g := f.grid r m e
    if f.beyond g then
      if sat ∨ r = .rtz then (f.maxPat neg, fpxSATURATED)
      else if f.spec = .ieee then (f.infPat neg, fpxOVERFLOW)
      else (f.canonNaN, fpxOVERFLOW)
    else
      (f.withSign neg ((g.1 <<< f.mbits) + g.2),
       if m ≠ 0 ∧ g = (0, 0) then fpxUNDERFLOW else 0)

/-- Rounding to nearest even with overflow to infinity (the arithmetic of R68–R70). -/
def FloatFmt.rne (f : FloatFmt) (v : Val) : Nat := (f.narrow .rne false v).1

/-- The conversion of a value to an integer range (R59, R63). -/
def toIntFmt (r : Rnd) (lo hi : Int) : Val → Int × W64
  | .nan => (0, fpxNANTOINT)
  | .inf neg => (if neg then lo else hi, fpxSATURATED)
  | .fin neg m e =>
    let k : Int := roundInt r m e
    let i := if neg then -k else k
    if i < lo then (lo, fpxSATURATED) else if hi < i then (hi, fpxSATURATED) else (i, 0)

/-! ### Exact arithmetic on values -/

def Val.isNaN : Val → Bool
  | .nan => true
  | _ => false
def Val.isZero : Val → Bool
  | .fin _ 0 _ => true
  | _ => false
def Val.isFinite : Val → Bool
  | .fin .. => true
  | _ => false
def Val.sign : Val → Bool
  | .nan => false
  | .inf n => n
  | .fin n _ _ => n
def Val.neg : Val → Val
  | .nan => .nan
  | .inf n => .inf (!n)
  | .fin n m e => .fin (!n) m e
def Val.abs : Val → Val
  | .nan => .nan
  | .inf _ => .inf false
  | .fin _ m e => .fin false m e

/-- The value of an integer. -/
def Val.ofInt (i : Int) : Val := .fin (i < 0) i.natAbs 0

/-- Multiply by a power of two. -/
def Val.scale (k : Int) : Val → Val
  | .fin n m e => .fin n m (e + k)
  | v => v

/-- The exact product (IEEE 754-2019: infinity × 0 is NaN). -/
def Val.mul : Val → Val → Val
  | .nan, _ => .nan
  | _, .nan => .nan
  | .inf a, .inf b => .inf (a != b)
  | .inf a, .fin b m _ => if m = 0 then .nan else .inf (a != b)
  | .fin a m _, .inf b => if m = 0 then .nan else .inf (a != b)
  | .fin a m e, .fin b k g => .fin (a != b) (m * k) (e + g)

/-- The exact sum; an exact sum of operands of opposite sign is +0 (R50). -/
def Val.add : Val → Val → Val
  | .nan, _ => .nan
  | _, .nan => .nan
  | .inf a, .inf b => if a = b then .inf a else .nan
  | .inf a, .fin .. => .inf a
  | .fin .., .inf b => .inf b
  | .fin a m e, .fin b k g =>
    let lo := min e g
    let x : Int := (m <<< (e - lo).toNat : Nat)
    let y : Int := (k <<< (g - lo).toNat : Nat)
    let s := (if a then -x else x) + (if b then -y else y)
    if s = 0 then .fin (a && b) 0 lo else .fin (s < 0) s.natAbs lo

/-- Compare finite or infinite values; `none` when either is NaN. -/
def Val.cmp (a b : Val) : Option Ordering :=
  match a, b with
  | .nan, _ => none
  | _, .nan => none
  | .inf x, .inf y => some (if x = y then .eq else if x then .lt else .gt)
  | .inf x, .fin .. => some (if x then .lt else .gt)
  | .fin .., .inf y => some (if y then .gt else .lt)
  | .fin .., .fin .. =>
    match Val.add a (Val.neg b) with
    | .fin n m _ => some (if m = 0 then .eq else if n then .lt else .gt)
    | _ => none

/-! ### FP32 operations, rounded once to nearest even (R68) -/

def f32 (x : W32) : Val := fmtFP32.decode x.toNat
def toF32 (v : Val) : W32 := BitVec.ofNat 32 (fmtFP32.rne v)
def f32NaN : W32 := 0x7FC00000#32
def f32One : W32 := 0x3F800000#32
def f32Inf (neg : Bool) : W32 := BitVec.ofNat 32 (fmtFP32.infPat neg)
def fAdd (a b : W32) : W32 := toF32 ((f32 a).add (f32 b))
def fSub (a b : W32) : W32 := toF32 ((f32 a).add (f32 b).neg)
def fMul (a b : W32) : W32 := toF32 ((f32 a).mul (f32 b))
/-- `a × b + c`, rounded once. -/
def fFma (a b c : W32) : W32 := toF32 (((f32 a).mul (f32 b)).add (f32 c))
/-- Sign change; a NaN gives the canonical NaN (R48). -/
def fNeg (a : W32) : W32 := toF32 (f32 a).neg
def fAbs (a : W32) : W32 := toF32 (f32 a).abs

/-- IEEE 754-2019 maximum (R51): a NaN operand gives NaN, −0 is less than +0. -/
def fMax (a b : W32) : W32 :=
  match (f32 a).cmp (f32 b) with
  | none => f32NaN
  | some .lt => b
  | some .gt => a
  | some .eq => if (f32 a).sign then b else a
/-- IEEE 754-2019 minimum (R51). -/
def fMin (a b : W32) : W32 :=
  match (f32 a).cmp (f32 b) with
  | none => f32NaN
  | some .lt => a
  | some .gt => b
  | some .eq => if (f32 a).sign then a else b

/-- A signalling NaN among FP32 patterns. -/
def f32SNaN (x : W32) : Bool := fmtFP32.isSNaN x.toNat

/-- INVALID for an operation (R72): it produced NaN from operands none of which is NaN, or read a
signalling NaN. -/
def opInvalid (ops : List W32) (result : W32) : W64 :=
  if ops.any f32SNaN ∨ ((f32 result).isNaN ∧ ops.all fun x => !(f32 x).isNaN) then fpxINVALID else 0

/-! ### Element formats (R44) -/

/-- The element formats of R44, by name. -/
inductive Fmt where
  | fp32 | bf16 | fp16 | e4m3 | e5m2 | mx8e4m3 | mx8e5m2 | mx6e3m2 | mx6e2m3 | mx4
  | int8 | int32 | uint8 | cb4 | pair | w96
  deriving DecidableEq, Repr

/-- The format a code names; `none` for a code that R44 does not list. -/
def Fmt.ofCode : Nat → Option Fmt
  | 0x01 => some .fp32
  | 0x02 => some .bf16
  | 0x03 => some .fp16
  | 0x04 => some .e4m3
  | 0x05 => some .e5m2
  | 0x06 => some .mx8e4m3
  | 0x07 => some .mx8e5m2
  | 0x08 => some .mx6e3m2
  | 0x09 => some .mx6e2m3
  | 0x0A => some .mx4
  | 0x10 => some .int8
  | 0x11 => some .int32
  | 0x12 => some .uint8
  | 0x13 => some .cb4
  | 0x20 => some .pair
  | 0x21 => some .w96
  | _ => none

/-- Bits per element (R44). -/
def Fmt.bits : Fmt → Nat
  | .fp32 | .int32 => 32
  | .bf16 | .fp16 => 16
  | .e4m3 | .e5m2 | .mx8e4m3 | .mx8e5m2 | .int8 | .uint8 => 8
  | .mx6e3m2 | .mx6e2m3 => 6
  | .mx4 | .cb4 => 4
  | .pair => 64
  | .w96 => 96

/-- The microscaling formats: a line has a scale byte (R52). -/
def Fmt.isMX : Fmt → Bool
  | .mx8e4m3 | .mx8e5m2 | .mx6e3m2 | .mx6e2m3 | .mx4 => true
  | _ => false

/-- The floating-point format of an element. -/
def Fmt.float : Fmt → Option FloatFmt
  | .fp32 => some fmtFP32
  | .bf16 => some fmtBF16
  | .fp16 => some fmtFP16
  | .e4m3 | .mx8e4m3 => some fmtE4M3
  | .e5m2 | .mx8e5m2 => some fmtE5M2
  | .mx6e3m2 => some fmtE3M2
  | .mx6e2m3 => some fmtE2M3
  | .mx4 => some fmtE2M1
  | _ => none

/-- `emax` of R54. -/
def Fmt.emax : Fmt → Int
  | .mx8e4m3 => 8
  | .mx8e5m2 => 15
  | .mx6e3m2 => 4
  | _ => 2

/-- Bytes of a line of 32 elements: L = 4·b + m (R90). -/
def Fmt.lineBytes (f : Fmt) : Nat := 4 * f.bits + (if f.isMX then 1 else 0)

/-- The value of an E8M0 scale byte; `none` is NaN (R52). -/
def scaleExp (b : Nat) : Option Int := if b = 0xFF then none else some ((b : Int) - 127)

/-- The value of an element pattern, with its line's scale byte in an MX format (R52, R53, R58). CB4 has no
value of its own; its index is given as an integer. A pattern of an MXFP8 element that R46 lists under E4M3 or E5M2 as a
NaN or an infinity reads as one, and sets no INVALID: R49 says that the MX element formats have no NaN and gives the pattern
no other value (log entry 86, DESIGN CHOICE). -/
def Fmt.value (f : Fmt) (scale x : Nat) : Val :=
  match f with
  | .int8 => Val.ofInt (sext 8 x)
  | .uint8 => Val.ofInt (x % 256 : Nat)
  | .int32 => Val.ofInt (sext 32 x)
  | .cb4 => Val.ofInt (x % 16 : Nat)
  | .pair => (fmtFP32.decode (x % 2 ^ 32)).add (fmtFP32.decode (x >>> 32))
  | .w96 => Val.ofInt (sext 96 x)
  | g =>
    match g.float with
    | some ff =>
      if g.isMX then
        match scaleExp scale with
        | none => .nan
        | some s => Val.scale s (ff.decode x)
      else ff.decode x
    | none => .nan

/-- Whether reading a pattern reads a signalling NaN (R49): MX element formats have none. -/
def Fmt.readsSNaN (f : Fmt) (x : Nat) : Bool :=
  match f with
  | .fp32 => fmtFP32.isSNaN x
  | .bf16 => fmtBF16.isSNaN x
  | .fp16 => fmtFP16.isSNaN x
  | .e5m2 => fmtE5M2.isSNaN x
  | .pair => fmtFP32.isSNaN (x % 2 ^ 32) || fmtFP32.isSNaN (x >>> 32)
  | _ => false

/-- The range of an integer format. -/
def Fmt.intRange : Fmt → Int × Int
  | .int8 => (-128, 127)
  | .uint8 => (0, 255)
  | _ => (-2147483648, 2147483647)

def Fmt.isInt : Fmt → Bool
  | .int8 | .uint8 | .int32 => true
  | _ => false

/-- Narrow one value to a format without a block scale (R59, R63): the pattern and the flags. -/
def Fmt.narrow (f : Fmt) (r : Rnd) (sat : Bool) (v : Val) : Nat × W64 :=
  if f.isInt then
    let (lo, hi) := f.intRange
    let (i, fl) := toIntFmt r lo hi v
    (wrapNat f.bits i, fl)
  else
    match f.float with
    | some ff => ff.narrow r sat v
    | none => (0, 0)

/-! ### MX blocks (R54–R57) -/

/-- floor(log2 m) + e of a positive finite value. -/
def Val.log2 : Val → Int
  | .fin _ m e => (Nat.log2 m : Int) + e
  | _ => 0

/-- The larger magnitude of two finite values. -/
def Val.maxAbs (a b : Val) : Val :=
  match (Val.abs a).cmp (Val.abs b) with
  | some .lt => b.abs
  | _ => a.abs

/-- One MX element of a finite value under a scale (R55): a quotient past the largest finite magnitude
becomes it, whatever SAT. -/
def mxElem (ff : FloatFmt) (r : Rnd) (s : Int) (v : Val) : Nat :=
  match Val.scale (-s) v with
  | .fin neg m e =>
    let g := ff.grid r m e
    if ff.beyond g then ff.maxPat neg else ff.withSign neg ((g.1 <<< ff.mbits) + g.2)
  | _ => 0

/-- A line of values (each with its rounding) as an MX block: scale byte, element patterns, flags. -/
def mxBlock (f : Fmt) (vs : List (Val × Rnd)) : Nat × List Nat × W64 :=
  match f.float with
  | none => (0, [], 0)
  | some ff =>
    if vs.any fun v => !v.1.isFinite then (0xFF, vs.map fun _ => 0, fpxMXNONFINITE)
    else
      let amax : Val := vs.foldl (fun (a : Val) v => Val.maxAbs a v.1) (Val.fin false 0 0)
      if amax.isZero then (0, vs.map fun v => ff.withSign v.1.sign 0, 0)
      else
        let s := max (-127) (min 127 (amax.log2 - f.emax))
        ((s + 127).toNat, vs.map fun v => mxElem ff v.2 s v.1, 0)

/-! ### FP32 pairs (R73–R76) -/

/-- A pair is non-finite when hi is; its lo is then +0. -/
def fixPair (hi lo : W32) : W32 × W32 := if (f32 hi).isFinite then (hi, lo) else (hi, 0)

/-- An FP32 value added to a pair (R74). -/
def pairAdd (hi lo x : W32) : W32 × W32 :=
  let s := fAdd hi x
  let bb := fSub s hi
  let e := fAdd (fSub hi (fSub s bb)) (fSub x bb)
  let t := fAdd lo e
  let hi' := fAdd s t
  fixPair hi' (fSub t (fSub hi' s))

/-- Two pairs added (R75). -/
def pairAdd2 (h1 l1 h2 l2 : W32) : W32 × W32 :=
  let s := fAdd h1 h2
  let bb := fSub s h1
  let e := fAdd (fSub h1 (fSub s bb)) (fSub h2 bb)
  let t := fAdd (fAdd l1 e) l2
  let hi' := fAdd s t
  fixPair hi' (fSub t (fSub hi' s))

/-! ### The three-pass split (R77) -/

/-- The two parts of an FP32 operand, as exact values. -/
def split3 (a : W32) : Val × Val :=
  match f32 a with
  | .fin neg m e =>
    let g := fmtSplit.grid .rne m e
    let hi := if fmtSplit.beyond g then fmtSplit.decode (fmtSplit.maxPat neg)
      else fmtSplit.decode (fmtSplit.withSign neg ((g.1 <<< fmtSplit.mbits) + g.2))
    let lo := (Val.fin neg m e).add hi.neg
    (hi, fmtSplit.decode (fmtSplit.rne lo))
  | v => (v, .fin false 0 0)

/-! ### W96 windows (R79–R84) -/

/-- The integer a finite contribution enters with: RNE(x × 2^(87 − E)) (R80). -/
def w96Enter (e : Int) (x : W32) : Int :=
  match f32 x with
  | .fin neg m g => let k : Int := roundInt .rne m (g + 87 - e); if neg then -k else k
  | _ => 0

/-- |x| ≥ 2^E (R81). -/
def w96Overflows (e : Int) (x : W32) : Bool :=
  match f32 x with
  | .fin _ 0 _ => false
  | .fin _ m g => decide (e ≤ (Nat.log2 m : Int) + g)
  | _ => false

/-- The FP32 readout of an element (R83): one RNE rounding, a zero sum reads as +0. -/
def w96F32 (e n : Int) : W32 := toF32 (.fin (n < 0) n.natAbs (e - 87))

/-- The pair readout of an element (R83). -/
def w96Pair (e n : Int) : W32 × W32 :=
  let hi := w96F32 e n
  match f32 hi with
  | .fin a m g => (hi, toF32 ((Val.fin (n < 0) n.natAbs (e - 87)).add (Val.fin a m g).neg))
  | _ => (hi, 0)

/-! ### The stochastic draw (R65): Philox4x32-10 -/

/-- One round (PRESUMED constants of the published generator, log entry 19). -/
def philoxRound (k0 k1 : Nat) (c : Nat × Nat × Nat × Nat) : Nat × Nat × Nat × Nat :=
  let (c0, c1, c2, c3) := c
  let p0 := 0xD2511F53 * c0
  let p1 := 0xCD9E8D57 * c2
  let h0 := p0 / 2 ^ 32
  let h1 := p1 / 2 ^ 32
  ((h1 ^^^ c1) ^^^ k0, p1 % 2 ^ 32, (h0 ^^^ c3) ^^^ k1, p0 % 2 ^ 32)

/-- `n` rounds, the key advancing after each. -/
def philox : Nat → Nat → Nat → Nat × Nat × Nat × Nat → Nat × Nat × Nat × Nat
  | 0, _, _, c => c
  | n + 1, k0, k1, c =>
    philox n ((k0 + 0x9E3779B9) % 2 ^ 32) ((k1 + 0xBB67AE85) % 2 ^ 32) (philoxRound k0 k1 c)

/-- What a stochastic draw depends on (R65). -/
structure SrKey where
  seed   : W64
  step   : Nat
  branch : Nat
  mb     : Nat
  lfold  : Nat
  core   : Nat
  tag    : Nat
  deriving DecidableEq, Repr

/-- The draw of a lane at an iteration: the low 16 bits of the first output word (R65). -/
def srDraw (k : SrKey) (lane iter : Nat) : Nat :=
  let key := (k.seed ^^^ BitVec.ofNat 64 (k.step <<< 16) ^^^ BitVec.ofNat 64 (k.branch <<< 8)).toNat
  let lo := k.mb % 2 ^ 13 + (k.lfold % 2 ^ 12) <<< 13 + (k.core % 8) <<< 25 + (lane % 128) <<< 28
  let c := (lo % 2 ^ 32, (lo >>> 32) % 2 ^ 32, k.tag % 2 ^ 32, iter % 2 ^ 32)
  (philox 10 (key % 2 ^ 32) (key >>> 32) c).1 % 65536

end Sys2Proof.Machine
end

