-- ==== Sys2Proof/Machine/Tensor.lean ====
section
/-!
DEFINITION. Sys2Proof/Machine/Tensor.lean: tensor descriptors and shard specifications (chapter 03): fields,
checks, and the address of an element (R85–R109). Nothing here reads memory: the words of a descriptor are given.
-/
namespace Sys2Proof.Machine

/-- One tensor descriptor (R85). -/
structure TDesc where
  strict   : Bool
  sharded  : Bool
  tag      : Nat
  base     : Nat
  fmt      : Nat
  layout   : Nat
  lineAxis : Nat
  rank     : Nat
  dims     : List Nat
  strides  : List Nat   -- of dimensions 1, 2, 3
  shardPtr : Nat
  edges    : List (Nat × Nat × Bool) := []  -- by dimension: first and last local index inside the global extent, and
                                            -- SDd.EDGE (R107); empty: not sharded
  deriving DecidableEq, Repr

/-- The descriptor that a block spells. A block of a sharded tensor that was captured at issue (R86) carries, in words
8 to 11, what its shard specification says of each dimension (`shardEdges`). -/
def TDesc.ofWords (ws : List W64) : TDesc :=
  { strict := bit (wd ws 0) 12, sharded := bit (wd ws 0) 13, tag := hdrTag ws,
    base := fld (wd ws 1) 0 48, fmt := fld (wd ws 1) 48 8, layout := fld (wd ws 1) 56 4,
    lineAxis := fld (wd ws 1) 60 1, rank := fld (wd ws 1) 61 3,
    dims := [fld (wd ws 2) 0 32, fld (wd ws 2) 32 32, fld (wd ws 3) 0 32, fld (wd ws 3) 32 32],
    strides := [fld (wd ws 4) 0 48, fld (wd ws 5) 0 48, fld (wd ws 6) 0 48],
    shardPtr := fld (wd ws 7) 0 48,
    edges := (List.range (min 4 (ws.length - 8))).map fun d =>
      (fld (wd ws (8 + d)) 0 32, fld (wd ws (8 + d)) 32 31, bit (wd ws (8 + d)) 63) }

/-- The blocked layouts (R88). -/
def TDesc.blocked (t : TDesc) : Bool := t.layout = 1 || t.layout = 2

/-- The extent of a dimension; 1 for a dimension not below RANK (R87). -/
def TDesc.dim (t : TDesc) (d : Nat) : Nat := if d < t.rank then t.dims.getD d 1 else 1
def TDesc.stride (t : TDesc) (d : Nat) : Nat := t.strides.getD (d - 1) 0

/-- The element format; FP32 stands for a code R44 does not list, which R96 has refused. -/
def TDesc.format (t : TDesc) : Fmt := (Fmt.ofCode t.fmt).getD .fp32
def TDesc.lineBytes (t : TDesc) : Nat := t.format.lineBytes

/-- Reserved fields that are not zero (R8, R87). -/
def TDesc.reservedBad (ws : List W64) : Bool :=
  let t := TDesc.ofWords ws
  let ranked := 1 ≤ t.rank && t.rank ≤ 4
  fld (wd ws 0) 14 18 ≠ 0 || fld (wd ws 4) 48 16 ≠ 0 || fld (wd ws 5) 48 16 ≠ 0
  || fld (wd ws 6) 48 16 ≠ 0 || fld (wd ws 7) 48 16 ≠ 0
  || (t.blocked && t.stride 1 ≠ 0) || (!t.sharded && t.shardPtr ≠ 0)
  || (ranked && ((List.range 4).any fun d =>
        t.rank ≤ d && (t.dims.getD d 0 ≠ 0 || (0 < d && t.stride d ≠ 0))))

/-- The storage of one matrix of a blocked tensor (R92). -/
def TDesc.nbx (t : TDesc) : Nat := (t.dim 0 + 127) / 128
def TDesc.nby (t : TDesc) : Nat := (t.dim 1 + 127) / 128
def TDesc.footprint (t : TDesc) : Nat := t.nbx * t.nby * 512 * t.lineBytes

/-- The address of a line and the position in it of element (x, y, z2, z3) (R91, R92). -/
def TDesc.lineAddr (t : TDesc) (x y z2 z3 : Nat) : Nat :=
  let l := t.lineBytes
  if t.blocked then
    let bx := x / 128
    let bY := y / 128
    let blk := if t.layout = 1 then bY * t.nbx + bx else bx * t.nby + bY
    let tile := 4 * ((y % 128) / 32) + (x % 128) / 32
    let line := if t.lineAxis = 0 then y % 32 else x % 32
    t.base + z2 * t.stride 2 + z3 * t.stride 3 + blk * 512 * l + tile * 32 * l + line * l
  else
    t.base + y * t.stride 1 + z2 * t.stride 2 + z3 * t.stride 3 + (x / 32) * l

def TDesc.pos (t : TDesc) (x y : Nat) : Nat := if t.lineAxis = 0 then x % 32 else y % 32

/-- The bit offset of an element from its line's address (R91, R92). -/
def TDesc.elemBit (t : TDesc) (x y : Nat) : Nat :=
  (if t.format.isMX then 8 else 0) + t.pos x y * t.format.bits

/-! ### Windows (chapter 03, Edges): an origin and an extent for each dimension -/

/-- A window: the first index (signed) and the extent of each of the four dimensions. -/
structure Win where
  org : List Int
  ext : List Nat
  deriving DecidableEq, Repr

def Win.o (w : Win) (d : Nat) : Int := w.org.getD d 0
def Win.e (w : Win) (d : Nat) : Nat := w.ext.getD d 1

/-- An index clamped into a dimension (R98). -/
def TDesc.clamp (t : TDesc) (d : Nat) (i : Int) : Nat := (max 0 (min i ((t.dim d : Int) - 1))).toNat
def TDesc.inside (t : TDesc) (d : Nat) (i : Int) : Bool := 0 ≤ i && i < (t.dim d : Int)

/-- A window that reaches outside the extent (R100). -/
def TDesc.outside (t : TDesc) (w : Win) : Bool :=
  (List.range 4).any fun d => !(t.inside d (w.o d) && t.inside d (w.o d + w.e d - 1))

/-- The window of a whole tensor. -/
def TDesc.whole (t : TDesc) : Win :=
  ⟨[0, 0, 0, 0], [t.dim 0, t.dim 1, t.dim 2, t.dim 3]⟩

/-- The stored index a read at a window position uses in a dimension: clamped into the extent (R98); then, at a halo
position beyond the global edge of a split dimension, clamped into the global extent, or none where it reads as +0
(R107). -/
def TDesc.readIdx (t : TDesc) (d : Nat) (i : Int) : Option Nat :=
  let l := t.clamp d i
  match t.edges[d]? with
  | some (a, b, zero) => if zero && (l < a || b < l) then none else some (max a (min l b))
  | none => some l

/-- The stored element a read at a window position gives; none: it reads as +0. -/
def TDesc.readAt (t : TDesc) (x y : Int) (z2 z3 : Nat) : Option (Nat × Nat × Nat × Nat) :=
  match t.readIdx 0 x, t.readIdx 1 y, t.readIdx 2 z2, t.readIdx 3 z3 with
  | some x, some y, some z2, some z3 => some (x, y, z2, z3)
  | _, _, _, _ => none

/-- The indices a window reaches in a dimension, first and last: clamped for a read, cut for a write; none when a write
lies wholly outside. -/
def TDesc.reach (t : TDesc) (dest : Bool) (w : Win) (d : Nat) : Option (Nat × Nat) :=
  let a := w.o d
  let b := w.o d + w.e d - 1
  if b < a then none
  else if dest then
    let lo := max 0 a
    let hi := min b ((t.dim d : Int) - 1)
    if hi < lo then none else some (lo.toNat, hi.toNat)
  else some (t.clamp d a, t.clamp d b)

/-- The bytes of one line, first and one past the last, that its positions p0 to p1 occupy: in an MX format the scale
byte as well, and of a written MX or CB4 line all (R101, R102). -/
def TDesc.lineSpan (t : TDesc) (dest : Bool) (p0 p1 : Nat) : Nat × Nat :=
  let b := t.format.bits
  if dest && (t.format.isMX || t.format = .cb4) then (0, t.lineBytes)
  else if t.format.isMX then (0, (15 + (p1 + 1) * b) / 8)
  else (p0 * b / 8, ((p1 + 1) * b + 7) / 8)

/-- The byte runs (address, length) that the elements of a window occupy (R293), for step 6 of R96. R96 does not say in
what units "the region the operation reaches" is counted; the model takes the bytes of its elements (log entry 84,
DEDUCED from R97 and R293). -/
def TDesc.runs (t : TDesc) (dest : Bool) (w : Win) : List (Nat × Nat) :=
  match t.reach dest w 0, t.reach dest w 1, t.reach dest w 2, t.reach dest w 3 with
  | some (x0, x1), some (y0, y1), some (z0, z1), some (u0, u1) =>
    let l := t.lineBytes
    let one := fun (a p0 p1 : Nat) => let (lo, hi) := t.lineSpan dest p0 p1; (a + lo, hi - lo)
    (rangeFrom u0 u1).flatMap fun z3 => (rangeFrom z0 z1).flatMap fun z2 =>
      if t.blocked then
        (rangeFrom (y0 / 32) (y1 / 32)).flatMap fun ty => (rangeFrom (x0 / 32) (x1 / 32)).flatMap fun tx =>
          let xs := (max x0 (32 * tx) % 32, min x1 (32 * tx + 31) % 32)
          let ys := (max y0 (32 * ty) % 32, min y1 (32 * ty + 31) % 32)
          let (ps, ls) := if t.lineAxis = 0 then (xs, ys) else (ys, xs)
          let tileAddr := t.lineAddr (32 * tx) (32 * ty) z2 z3
          if t.lineSpan dest ps.1 ps.2 = (0, l) then [(tileAddr + ls.1 * l, (ls.2 + 1 - ls.1) * l)]
          else (rangeFrom ls.1 ls.2).map fun k => one (tileAddr + k * l) ps.1 ps.2
      else
        (rangeFrom y0 y1).map fun y =>
          let a := t.lineAddr (32 * (x0 / 32)) y z2 z3
          let lo := (t.lineSpan dest (x0 % 32) 31).1
          (a + lo, (x1 / 32 - x0 / 32) * l + (t.lineSpan dest 0 (x1 % 32)).2 - lo)
  | _, _, _, _ => []

/-! ### The shard specification (R105–R109) -/

/-- What a shard check needs of the job: for a device group, its size and this device's member index. -/
structure GroupView where
  size : Nat
  me   : Option Nat
  deriving DecidableEq, Repr

def ceilDiv (a b : Nat) : Nat := (a + b - 1) / b

/-- The piece of member i: (start, own) (R106). -/
def shardPiece (g u n i : Nat) : Nat × Nat :=
  let c := ceilDiv g u
  let q := c / n
  let r := c % n
  let units := if i < r then q + 1 else q
  let start := (i * q + min i r) * u
  (start, min (start + units * u) g - start)

def shardReservedBad (rank : Nat) (ws : List W64) : Bool :=
  fld (wd ws 0) 12 20 ≠ 0 || wd ws 7 ≠ 0 ||
  (List.range 4).any fun d =>
    let sd := wd ws (3 + d)
    let g := fld (wd ws (1 + d / 2)) (32 * (d % 2)) 32
    if rank ≤ d then sd ≠ 0 || g ≠ 0
    else fld sd 3 5 ≠ 0 || fld sd 14 2 ≠ 0 || (fld sd 0 2 = 0 && sd ≠ 0)

/-- The checks of R109. -/
def shardCheck (t : TDesc) (groups : Nat → Option GroupView) (ws : List W64) : Status :=
  let dims := List.range t.rank
  let sd := fun d => wd ws (3 + d)
  let gd := fun d => fld (wd ws (1 + d / 2)) (32 * (d % 2)) 32
  let isSplit := fun d => fld (sd d) 0 2 = 1
  (commonChecks ws [2] (shardReservedBad t.rank ws)).andThen fun _ =>
  firstFail [
    (dims.any fun d => 2 ≤ fld (sd d) 0 2, .unsupported),
    (dims.any fun d => gd d = 0 || 2 ^ 31 < gd d, .bounds),
    (dims.any fun d => isSplit d && ((groups (fld (sd d) 8 6)).bind (·.me)).isNone, .bounds),
    (dims.any fun d => isSplit d && (
      let u := fld (sd d) 48 16
      let n := ((groups (fld (sd d) 8 6)).map (·.size)).getD 0
      u = 0 || ceilDiv (gd d) u < n || u < fld (sd d) 16 16 || u < fld (sd d) 32 16), .bounds),
    (dims.any fun d =>
      if isSplit d then
        match groups (fld (sd d) 8 6) with
        | some gv => t.dim d ≠ (shardPiece (gd d) (fld (sd d) 48 16) gv.size (gv.me.getD 0)).2
            + fld (sd d) 16 16 + fld (sd d) 32 16
        | none => true
      else t.dim d ≠ gd d, .bounds)]

/-- What the shard specification of a tensor says of reads beyond the global edge (R107): for each dimension the first
and the last local index whose global index lies in the global extent, and EDGE. On a dimension that is not split, local
and global indices are equal. -/
def shardEdges (t : TDesc) (groups : Nat → Option GroupView) (ws : List W64) : List W64 :=
  (List.range 4).map fun d =>
    let sd := wd ws (3 + d)
    let g := fld (wd ws (1 + d / 2)) (32 * (d % 2)) 32
    let gv := (groups (fld sd 8 6)).getD ⟨1, none⟩
    if t.rank ≤ d || fld sd 0 2 ≠ 1 then put 32 31 (t.dim d - 1)
    else
      let start := (shardPiece g (fld sd 48 16) gv.size (gv.me.getD 0)).1
      let lo := fld sd 16 16
      put 0 32 (lo - start) ||| put 32 31 (min (t.dim d - 1) (g + lo - start - 1)) ||| put 63 1 (fld sd 2 1)

/-! ### The checks of a tensor descriptor (R96) -/

/-- How a naming descriptor uses a tensor. -/
structure TensorUse where
  role  : Fmt → Bool           -- the formats the role permits (R45)
  dest  : Bool                 -- used as a destination (R95)
  win   : TDesc → Win          -- the window

/-- Steps 1 to 4 of R96. -/
def TDesc.shapeCheck (t : TDesc) (role : Fmt → Bool) (dest : Bool) : Status :=
  let l := t.lineBytes
  let need := fun (d : Nat) =>
    if d = 1 then ceilDiv (t.dim 0) 32 * l
    else if d = 2 then (if t.blocked then t.footprint else t.dim 1 * t.stride 1)
    else t.dim 2 * t.stride 2
  let strided := (List.range 4).filter fun d => 0 < d && d < t.rank && !(t.blocked && d = 1)
  firstFail [
    ((match Fmt.ofCode t.fmt with | none => true | some f => !role f) || 2 < t.layout
      || (t.lineAxis = 1 && t.layout = 0), .unsupported),
    (t.rank = 0 || 4 < t.rank
      || (List.range t.rank).any fun d => t.dims.getD d 0 = 0 || 2 ^ 31 < t.dims.getD d 0, .bounds),
    (t.base % 64 ≠ 0 || t.strides.any (fun s => s % 64 ≠ 0) || t.shardPtr % 64 ≠ 0, .align),
    (strided.any fun d => t.stride d ≠ 0 && t.stride d < need d, .overlap),
    (dest && strided.any fun d => t.stride d = 0 && 1 < t.dim d, .overlap)]

/-- The status of the first run of a region that is refused. -/
def regionStatus (region : Nat × Nat → Status) (runs : List (Nat × Nat)) : Status :=
  match runs.find? (fun r => region r ≠ .ok) with
  | some r => region r
  | none => .ok

/-- The whole of R96: the common checks, steps 1–4, the strict window, the region reached, the shard
specification. `region` gives the status of a byte run for the requester; `shard` the block at an address, with the
status of reading it. -/
def tensorCheck (ws : List W64) (u : TensorUse) (region : Nat × Nat → Status)
    (groups : Nat → Option GroupView) (shard : Nat → Status × List W64) : Status :=
  let t := TDesc.ofWords ws
  (commonChecks ws [1] (TDesc.reservedBad ws)).andThen fun _ =>
  (t.shapeCheck u.role u.dest).andThen fun _ =>
  (if t.strict && t.outside (u.win t) then Status.bounds else .ok).andThen fun _ =>
  (regionStatus region (t.runs u.dest (u.win t))).andThen fun _ =>
  if t.sharded then
    let b := shard t.shardPtr
    b.1.andThen fun _ => shardCheck t groups b.2
  else .ok

end Sys2Proof.Machine
end

