-- ==== Sys2Proof/Machine/SumView.lean ====
section
/-!
DEFINITION. Sys2Proof/Machine/SumView.lean: reads of memory as agents see them: the bytes of a sum view come from the
windows of an open instance (R393, R394), every other byte from memory.
-/
namespace Sys2Proof.Machine

/-- Bytes of a contiguous tensor, padding included (R92, R94). -/
def TDesc.storage (t : TDesc) : Nat :=
  let mat := if t.blocked then t.footprint else t.dim 1 * (ceilDiv (t.dim 0) 32 * t.lineBytes)
  mat * t.dim 2 * t.dim 3

/-! ### Reduce plans (R376) -/

def planMode (p : List W64) : Nat := fld (wd p 0) 12 2
def planAlg (p : List W64) : Nat := fld (wd p 0) 14 2
def planComp (p : List W64) : Nat := fld (wd p 0) 16 2
def planValFp32 (p : List W64) : Bool := bit (wd p 0) 18
def planGroup (p : List W64) : Nat := fld (wd p 5) 0 6
def planNback (p : List W64) : Nat := fld (wd p 5) 8 4
def planKsel (p : List W64) : Nat := fld (wd p 5) 16 9
def planEinit (p : List W64) : Int := sext 9 (fld (wd p 5) 32 9)
def planBranch (p : List W64) : Nat := fld (wd p 5) 48 6
def planLayer (p : List W64) : Nat := fld (wd p 6) 0 16
def planDoneSlot (p : List W64) : Nat := fld (wd p 6) 16 6
def planDeadline (p : List W64) : Nat := fld (wd p 6) 32 32
def planNready (p : List W64) : Nat := fld (wd p 7) 0 12

def State.planWords (s : State) (n : Nat) : Option (List W64) := s.job.bind fun j => j.plans[n]?

/-- The tensor descriptors a plan names: 0 GRAD, 1 SUM, 2 EF, 3 HIST. -/
def State.planTensor (s : State) (n k : Nat) : TDesc :=
  TDesc.ofWords (match s.job with
    | some j => (j.planSub.getD n []).getD k []
    | none => [])

/-- 4-byte slots of GRAD's storage, padding included (R378). -/
def State.planSlots (s : State) (n : Nat) : Nat := (s.planTensor n 0).storage / 4
def State.planChunks (s : State) (n : Nat) : Nat := ceilDiv (s.planSlots n) 4096
/-- Slots of one chunk. -/
def State.chunkLen (s : State) (n c : Nat) : Nat := min 4096 (s.planSlots n - 4096 * c)

/-- A window element read out as one FP32 value or as a pair; a NONFINITE chunk reads as the canonical NaN in either mode
(R83, R84, R392, R394; log entry 58). -/
def Inst.readout (x : Inst) (pairMode : Bool) (slot : Nat) : W32 × W32 :=
  let ch := x.chunks.getD (slot / 4096) { e := 0 }
  let w := SMap.get ({} : WElem) x.win slot
  if ch.nonfin then (f32NaN, 0)
  else if pairMode then (w.hi, w.lo)
  else w96Pair ch.e w.n

/-- The byte a sum view shows at an address, when an allocated instance's SUM covers it. -/
def State.viewByte (s : State) (a : Nat) : Option Byte :=
  s.col.insts.findSome? fun x =>
    if !x.alloc then none
    else
      let t := s.planTensor x.plan 1
      let sz := if t.format = .pair then 8 else 4
      let b := canon a
      if t.base ≤ b ∧ b < t.base + sz * s.planSlots x.plan then
        let o := b - t.base
        let (hi, lo) := x.readout (planMode ((s.planWords x.plan).getD []) = 1) (o / sz)
        let k := o % sz
        some (BitVec.ofNat 8 ((if k < 4 then hi.toNat >>> (8 * k) else lo.toNat >>> (8 * (k - 4)))))
      else none

/-- A byte as an agent reads it. -/
def State.readByte (s : State) (a : Nat) : Byte :=
  if s.col.insts.isEmpty then s.byteAt a else (s.viewByte a).getD (s.byteAt a)

def State.readBytes (s : State) (a n : Nat) : List Byte := (List.range n).map fun i => s.readByte (a + i)
def State.readNum (s : State) (a n : Nat) : Nat := leNat (s.readBytes a n)
def State.readWord (s : State) (a : Nat) : W64 := BitVec.ofNat 64 (s.readNum a 8)
def State.readBlock (s : State) (a : Nat) : List W64 := (List.range 8).map fun i => s.readWord (a + 8 * i)

/-- The 32-bit pattern at an address. -/
def State.read32 (s : State) (a : Nat) : W32 := BitVec.ofNat 32 (s.readNum a 4)

end Sys2Proof.Machine
end

