-- ==== Sys2Proof/Machine/Elem.lean ====
section
/-!
DEFINITION. Sys2Proof/Machine/Elem.lean: reading and writing the elements of tensors in memory, with the edge rules
R97–R103.
-/
namespace Sys2Proof.Machine

/-- The scale byte of the line of an element of an MX tensor. -/
def State.scaleAt (s : State) (t : TDesc) (x y z2 z3 : Nat) : Nat :=
  if t.format.isMX then (s.readByte (t.lineAddr x y z2 z3)).toNat else 0

/-- The pattern of an element inside the extent (R91, R92). -/
def State.elemPat (s : State) (t : TDesc) (x y z2 z3 : Nat) : Nat :=
  let b := t.elemBit x y
  let w := t.format.bits
  let n := (b % 8 + w + 7) / 8
  (s.readNum (t.lineAddr x y z2 z3 + b / 8) n >>> (b % 8)) % 2 ^ w

/-- The value of an element inside the extent. -/
def State.elemVal (s : State) (t : TDesc) (x y z2 z3 : Nat) : Val :=
  t.format.value (s.scaleAt t x y z2 z3) (s.elemPat t x y z2 z3)

/-- The value, the pattern and the scale byte at a window position: clamped into the extent (R98), and at the global
edge as R107 gives; a position that reads as +0 has pattern 0. -/
def State.winVal (s : State) (t : TDesc) (x y : Int) (z2 z3 : Nat) : Val :=
  match t.readAt x y z2 z3 with
  | some (x, y, z2, z3) => s.elemVal t x y z2 z3
  | none => .fin false 0 0
def State.winPat (s : State) (t : TDesc) (x y : Int) (z2 z3 : Nat) : Nat :=
  match t.readAt x y z2 z3 with
  | some (x, y, z2, z3) => s.elemPat t x y z2 z3
  | none => 0
def State.winScale (s : State) (t : TDesc) (x y : Int) (z2 z3 : Nat) : Nat :=
  match t.readAt x y z2 z3 with
  | some (x, y, z2, z3) => s.scaleAt t x y z2 z3
  | none => 0

/-- How many positions of a window of nx × ny lie outside the extent (R98, R99). -/
def TDesc.outsideCount (t : TDesc) (x0 y0 : Int) (nx ny : Nat) : Nat :=
  let inX := (max 0 (min (x0 + nx) (t.dim 0) - max x0 0)).toNat
  let inY := (max 0 (min (y0 + ny) (t.dim 1) - max y0 0)).toNat
  nx * ny - inX * inY

/-- Count clamped reads and dropped writes of a fold (R103). -/
def State.countClamp (s : State) (f rd wr : Nat) : State :=
  if rd = 0 && wr = 0 then s
  else s.foldRegs f fun r => { r with clampCnt := bumpFld (bumpFld r.clampCnt 0 32 rd) 32 16 wr }

/-- Write `w` bits at a bit offset from a byte address. -/
def State.writeBits (s : State) (who a bitOff w v : Nat) : State :=
  let a := a + bitOff / 8
  let sh := bitOff % 8
  let n := (sh + w + 7) / 8
  if sh = 0 && w % 8 = 0 then s.write who a (leBytes n v)
  else
    let old := s.numAt a n
    let mask := (2 ^ w - 1) <<< sh
    s.write who a (leBytes n ((old - (old &&& mask)) + (v % 2 ^ w) <<< sh))

/-- Write the pattern of one element inside the extent. -/
def State.writeElem (s : State) (who : Nat) (t : TDesc) (x y z2 z3 pat : Nat) : State :=
  s.writeBits who (t.lineAddr x y z2 z3) (t.elemBit x y) t.format.bits pat

/-- Write one whole line of an MX or CB4 tensor: scale byte and 32 packed elements, padding as 0 (R102). -/
def State.writeLine (s : State) (who : Nat) (t : TDesc) (lineAddr scale : Nat) (pats : List Nat) : State :=
  let b := t.format.bits
  let packed := ((List.range 32).foldl (fun acc i => acc + ((pats.getD i 0) % 2 ^ b) <<< (b * i)) 0)
  let body := leBytes (4 * b) packed
  s.write who lineAddr (if t.format.isMX then BitVec.ofNat 8 scale :: body else body)

/-- The first uncorrectable unit that a list of byte runs touches. -/
def State.ueRuns (s : State) (runs : List (Nat × Nat)) : Option Nat :=
  if s.ue.isEmpty then none else runs.findSome? fun r => s.ueIn r.1 r.2

/-- Reading byte runs corrects what can be corrected (R267). -/
def State.correctRuns (s : State) (runs : List (Nat × Nat)) : State :=
  if s.ue.isEmpty then s else runs.foldl (fun s r => s.corrected r.1 r.2) s

/-- The stored element that a window position reads lies under an uncorrectable error: its value is undefined (R322). -/
def State.damagedAt (s : State) (t : TDesc) (x y : Int) (z2 z3 : Nat) : Bool :=
  !s.ue.isEmpty && match t.readAt x y z2 z3 with
    | some (x, y, z2, z3) =>
      let (lo, hi) := t.lineSpan false (t.pos x y) (t.pos x y)
      (s.ueIn (t.lineAddr x y z2 z3 + lo) (hi - lo)).isSome
    | none => false

/-- A window of one plane of a tensor. -/
def planeWin (x0 y0 : Int) (nx ny z2 z3 : Nat) : Win := ⟨[x0, y0, z2, z3], [nx, ny, 1, 1]⟩

end Sys2Proof.Machine
end

