-- ==== Sys2Proof/Machine/Matrix.lean ====
section
/-!
DEFINITION. Sys2Proof/Machine/Matrix.lean: matmul descriptors, the accumulator halves, gating and speculation
(chapter 04). What a matmul writes is computed when it completes (log entry 11).
-/
namespace Sys2Proof.Machine

/-! ### Descriptor fields (R125) -/

def mmAccInit (d : List W64) : Bool := bit (wd d 0) 12
def mmNogate (d : List W64) : Bool := bit (wd d 0) 13
def mmSpec (d : List W64) : Bool := bit (wd d 0) 14
def mmArr (d : List W64) : Nat := fld (wd d 0) 15 2
def mmEvtEn (d : List W64) : Bool := bit (wd d 0) 17
def mmAX0 (d : List W64) : Int := sext 32 (fld (wd d 3) 0 32)
def mmAY0 (d : List W64) : Int := sext 32 (fld (wd d 3) 32 32)
def mmWX0 (d : List W64) : Int := sext 32 (fld (wd d 4) 0 32)
def mmWY0 (d : List W64) : Int := sext 32 (fld (wd d 4) 32 32)
def mmM (d : List W64) : Nat := fld (wd d 5) 0 11
def mmNW (d : List W64) : Nat := fld (wd d 5) 16 8
def mmK (d : List W64) : Nat := fld (wd d 5) 32 32
def mmHalf (d : List W64) : Nat := fld (wd d 6) 0 1
def mmRow0 (d : List W64) : Nat := fld (wd d 6) 8 9
def mmSlot (d : List W64) : Nat := fld (wd d 6) 24 6
def mmEvt (d : List W64) : Nat := fld (wd d 6) 32 6
def mmZ (d : List W64) (i : Nat) : Nat := fld (wd d 7) (16 * i) 16

/-- Reserved fields (R125), those a clear flag reserves included. -/
def mmReserved (d : List W64) : Bool :=
  fld (wd d 0) 18 14 ≠ 0 || fld (wd d 1) 48 16 ≠ 0 || fld (wd d 2) 48 16 ≠ 0
  || fld (wd d 5) 11 5 ≠ 0 || fld (wd d 5) 24 8 ≠ 0
  || fld (wd d 6) 1 7 ≠ 0 || fld (wd d 6) 17 7 ≠ 0 || fld (wd d 6) 30 2 ≠ 0 || fld (wd d 6) 38 26 ≠ 0
  || (!mmSpec d && mmSlot d ≠ 0) || (!mmEvtEn d && mmEvt d ≠ 0)

/-- The arrays a descriptor uses, each with the first window row and the number of rows it takes (R126). -/
def mmArrays (d : List W64) : List (Nat × Nat × Nat) :=
  let m := mmM d
  let ma := (m + 1) / 2
  match mmArr d with
  | 3 => [(0, 0, ma), (1, ma, m - ma)]
  | 1 => [(0, 0, m)]
  | _ => [(1, 0, m)]

/-- The kinds of operand pair (R113): INT, three-pass FP32, or one pass of exact products; with Kp. -/
inductive PairKind where
  | int | fp32 | direct
  deriving DecidableEq, Repr

def mmPair (a w : Fmt) : Option (PairKind × Nat) :=
  let fp8 := fun (f : Fmt) => f = .e4m3 || f = .e5m2
  let mx := fun (f : Fmt) => f = .mx8e4m3 || f = .mx8e5m2 || f = .mx6e3m2 || f = .mx6e2m3
  if (a = .bf16 && w = .bf16) || (a = .fp16 && w = .fp16) || (fp8 a && fp8 w) || (mx a && mx w) then
    some (.direct, 128)
  else if a = .mx4 && w = .mx4 then some (.direct, 256)
  else if (a = .int8 || a = .uint8) && w = .int8 then some (.int, 128)
  else if a = .fp32 && w = .fp32 then some (.fp32, 128)
  else none

def mmA (e : Issued) : TDesc := TDesc.ofWords (e.subs.getD 0 [])
def mmW (e : Issued) : TDesc := TDesc.ofWords (e.subs.getD 1 [])

/-! ### Accumulators (R119, R124) -/

/-- The key of an element: array, half, row, column. -/
def accKey (arr half row col : Nat) : Nat := ((arr * 2 + half) * 512 + row) * 128 + col

def State.accAt (s : State) (f key : Nat) : W32 :=
  match SMap.get none (s.fold f).acc key with
  | some w => w
  | none => Config.undefAcc f (s.fold f).resets key

def State.half (s : State) (f arr h : Nat) : Half := SMap.get {} (s.fold f).halves (arr * 2 + h)
def State.setHalf (s : State) (f arr h : Nat) (x : Half) : State :=
  s.updFold f fun v => { v with halves := SMap.set {} v.halves (arr * 2 + h) x }

/-! ### Gating tiles and groups (R131–R138) -/

def isZeroVal (v : Val) : Bool :=
  match v with
  | .fin _ 0 _ => true
  | _ => false

/-- The value of A at window row m and reduction index k. -/
def State.mmAval (s : State) (e : Issued) (m k : Nat) : Val :=
  let d := e.words
  s.winVal (mmA e) (mmAX0 d + k) (mmAY0 d + m) (mmZ d 0) (mmZ d 1)

/-- The tiles of an array: first window row and rows of each. -/
def mmTiles (d : List W64) : List (Nat × Nat) :=
  (mmArrays d).flatMap fun (_, m0, n) =>
    (List.range ((n + 31) / 32)).map fun t => (m0 + 32 * t, min 32 (n - 32 * t))

/-- A tile of 32 reduction indices from 32g holds only ±0. -/
def State.tileZero (s : State) (e : Issued) (tile : Nat × Nat) (g : Nat) : Bool :=
  (List.range tile.2).all fun i => (List.range (min 32 (mmK e.words - 32 * g))).all fun j =>
    isZeroVal (s.mmAval e (tile.1 + i) (32 * g + j))

def mmGroups (d : List W64) : Nat := (mmK d + 31) / 32

/-- The groups with a non-zero tile, as a mask. -/
def State.observed (s : State) (e : Issued) : Nat :=
  (List.range (mmGroups e.words)).foldl (fun m g =>
    if (mmTiles e.words).all fun t => s.tileZero e t g then m else m + 2 ^ g) 0

/-- The groups predicted non-zero (R134). -/
def State.predicted (s : State) (f : Nat) (d : List W64) : Nat :=
  let all := 2 ^ mmGroups d - 1
  match SMap.get none (s.fold f).spec (mmSlot d) with
  | some sl => if sl.nG = mmGroups d then sl.mask else all
  | none => all

def maskHas (m g : Nat) : Bool := (m >>> g) % 2 = 1
/-- Members of a mask. -/
def maskCount (n m : Nat) : Nat := (List.range n).foldl (fun c g => c + b2n (maskHas m g)) 0

/-- The passes of a walk over the groups, each with the groups its cell rows hold (R136, R138): a group that is not
computed is left out, a mispredicted one begins a new pass. -/
def walkPasses (perPass : Nat) : List (Nat × Bool × Bool) → List Nat → List (List Nat)
  | [], cur => if cur.isEmpty then [] else [cur]
  | (g, compute, catchUp) :: gs, cur =>
    if !compute then walkPasses perPass gs cur
    else if catchUp then (if cur.isEmpty then [] else [cur]) ++ walkPasses perPass gs [g]
    else if cur.length = perPass then cur :: walkPasses perPass gs [g]
    else walkPasses perPass gs (cur ++ [g])

/-! ### Start (R120, R134, R223) -/

/-- A gated head of the matmul queue waits on its slot. -/
def State.gateMxa (s : State) (f : Nat) : State :=
  match (s.fold f).matQ with
  | e :: _ =>
    match e.gate with
    | some g => s.await f g .gateMxa
    | none => s
  | [] => s

def halfFree (h : Half) : Bool := h.st = .empty || h.st = .full

/-- The start conditions of the head of the matmul queue. -/
def State.matReady (s : State) (f : Nat) (e : Issued) : Bool :=
  let d := e.words
  (mmArrays d).all (fun a => halfFree (s.half f a.1 (mmHalf d)))
  && (match e.gate with
      | some g => s.gateReady f g .gateMxa
      | none => true)
  && !(mmSpec d && (s.fold f).regs.specEn
      && (s.fold f).matRun.any fun r => r.useSpec && mmSlot r.d.words = mmSlot d)

/-- MATMUL_START. TILES_GATED counts here, once for each pass set of a three-pass matmul, and leaves out the tiles of groups
that speculation skips; R143 and R144 fix neither the moment nor these cases (log entry 90, DESIGN CHOICE). -/
def opMatmulStart (s : State) (f : Nat) : State :=
  match (s.fold f).matQ with
  | [] => s
  | e :: rest =>
    if !(s.fold f).clocked || !s.matReady f e then s
    else
      let d := e.words
      let s := match e.gate with
        | some g => s.consumeGate f g
        | none => s
      let s := (mmArrays d).foldl (fun s a => s.setHalf f a.1 (mmHalf d) { st := .filling }) s
      let useSpec := mmSpec d && (s.fold f).regs.specEn
      let obs := if useSpec || !mmNogate d then s.observed e else 0
      let n := mmGroups d
      let pred := if useSpec then s.predicted f d else 2 ^ n - 1
      let computed := if useSpec then obs ||| pred else 2 ^ n - 1
      let miss := if useSpec then obs &&& (2 ^ n - 1 - (pred &&& (2 ^ n - 1))) else 0
      let dem := if useSpec then (s.fold f).demand.find? (·.slot = mmSlot d) else none
      let pend := match dem with
        | some q => ((List.range n).filter fun g => maskHas computed g && maskHas q.mask g).map
            fun g => (g, maskHas miss g)
        | none => []
      let sets := match mmPair (mmA e).format (mmW e).format with
        | some (.fp32, _) => 3
        | _ => 1
      let gated := if mmNogate d then 0 else
        ((mmTiles d).foldl (fun c t => c + ((List.range n).filter fun g =>
          maskHas computed g && s.tileZero e t g).length) 0) * sets
      let s := s.updFold f fun v => { v with
        matQ := rest,
        matRun := v.matRun ++ [{ d := e, useSpec := useSpec, skipped := 2 ^ n - 1 - (computed &&& (2 ^ n - 1)),
                                 miss := miss, pending := pend }],
        demand := v.demand.map fun q => if useSpec && q.slot = mmSlot d then { q with taken := true } else q,
        regs := { v.regs with gateCnt := bumpFld v.regs.gateCnt 0 48 gated } }
      s.gateMxa f

/-! ### What a matmul computes (R69–R71, R77, R78, R110–R112, R118, R121, R126, R127, R136) -/

def valInt (v : Val) : Int :=
  match v with
  | .fin n m e => (if n then -1 else 1) * (m <<< e.toNat : Nat)
  | _ => 0

/-- The operand kind and Kp of a descriptor that has passed R128. -/
def mmKind (e : Issued) : PairKind × Nat := (mmPair (mmA e).format (mmW e).format).getD (.direct, 128)

/-- The pass sets of a matmul: which split part of A and of W each uses, for FP32 (R77, R78). -/
def mmSets (kind : PairKind) : List (Bool × Bool) :=
  if kind = .fp32 then [(true, false), (false, true), (true, true)] else [(true, true)]

/-- A split part of an FP32 operand: the high one or the low one. -/
def splitPart (high : Bool) (v : Val) : Val := let p := split3 (toF32 v); if high then p.1 else p.2

/-- Reduction indices of a pass, in the order of its cell rows. -/
def passIdx (k : Nat) (pass : List Nat) : List Nat :=
  pass.flatMap fun g => (List.range (min 32 (k - 32 * g))).map (32 * g + ·)

/-- Load a pass's weights into the shadow registers (R110, R118): row r holds reduction index r of the pass, or 2r and
2r + 1 in MXFP4, which share a line and its scale (R115); of an FP32 weight, its split part. -/
def State.loadCells (s : State) (e : Issued) (high : Bool) (pass : List Nat) : SMap CellReg :=
  let d := e.words
  let t := mmW e
  let (kind, kp) := mmKind e
  let per := kp / 128
  let ks := passIdx (mmK d) pass
  (List.range (ceilDiv ks.length per)).flatMap fun (r : Nat) => (List.range (mmNW d)).filterMap fun (n : Nat) =>
    let at_ := fun (k : Nat) => (mmWX0 d + (n : Int), mmWY0 d + (k : Int))
    let reg : CellReg :=
      { pats := ((ks.drop (per * r)).take per).map fun k =>
          let (x, y) := at_ k
          if kind = .fp32 then fmtFP32.rne (splitPart high (s.winVal t x y (mmZ d 2) (mmZ d 3)))
          else s.winPat t x y (mmZ d 2) (mmZ d 3),
        scale := (((ks.drop (per * r)).take per).find? fun k =>
            (t.readAt (at_ k).1 (at_ k).2 (mmZ d 2) (mmZ d 3)).isSome).elim 0 fun k =>
          s.winScale t (at_ k).1 (at_ k).2 (mmZ d 2) (mmZ d 3) }
    if reg = {} then none else some ((128 * r + n : Nat), reg)

/-- The weight of reduction index i of a pass at column n, as the active register of its cell gives it. -/
def cellVal (fmt : Fmt) (per : Nat) (cells : SMap CellReg) (i n : Nat) : Val :=
  let reg := SMap.get {} cells (128 * (i / per) + n)
  fmt.value reg.scale (reg.pats.getD (i % per) 0)

/-- What a pass needs of one activation row: the values, by reduction index, and which of its groups' tiles are gated. -/
structure ActRow where
  vals : List Val
  zero : List Bool
  deriving DecidableEq, Repr

/-- One pass over one element of a row: every product of the pass in ascending k, gated tiles left out; cell rows without
a weight give products of +0, unless their tile is gated (R97, R112, R131). -/
def passElem (kind : PairKind) (k kp : Nat) (gating high : Bool) (a : ActRow) (pass : List Nat) (w : Nat → Val)
    (acc : W32) : W32 :=
  let ks := passIdx k pass
  let idx := List.range ks.length
  let av := fun i => let v := a.vals.getD (ks.getD i 0) (.fin false 0 0); if kind = .fp32 then splitPart high v else v
  let zero := fun g => a.zero.getD g false
  if kind = .int then acc + BitVec.ofInt 32 (idx.foldl (fun n i => n + valInt (av i) * valInt (w i)) 0)
  else
    let acc := idx.foldl (fun acc i =>
      if gating && zero (ks.getD i 0 / 32) then acc else fAdd acc (toF32 ((av i).mul (w i)))) acc
    let padded := ks.length < kp && (!gating || (ks.length % 32 ≠ 0 && !zero (pass.getLastD 0)))
    if padded then fAdd acc 0 else acc

/-- A pass with the registers it runs on: the split parts, its groups, the weights. -/
structure Pass where
  aHigh  : Bool
  groups : List Nat
  cells  : SMap CellReg
  deriving DecidableEq, Repr

/-- Every pass of a matmul in order (R111, R112, R136): one at least. -/
def State.mmPasses (s : State) (r : MatRun) : List Pass :=
  let e := r.d
  let (kind, kp) := mmKind e
  let walk := (List.range (mmGroups e.words)).map fun g => (g, !maskHas r.skipped g, maskHas r.miss g)
  let ps := walkPasses (kp / 32) walk []
  (mmSets kind).flatMap fun p => (if ps.isEmpty then [[]] else ps).map fun gs => ⟨p.1, gs, s.loadCells e p.2 gs⟩

/-- The accumulator elements one window row gives: (key, value) for columns 0 to NW − 1. -/
def State.mmRow (s : State) (f : Nat) (e : Issued) (passes : List Pass) (arr m0 j : Nat) : List (Nat × W32) :=
  let d := e.words
  let (kind, kp) := mmKind e
  let m := m0 + j
  let rows := match (mmArrays d).find? (·.1 = arr) with
    | some (_, _, n) => n
    | none => 0
  let tile := (m0 + j / 32 * 32, min 32 (rows - j / 32 * 32))
  let a : ActRow :=
    { vals := (List.range (mmK d)).map fun k => s.mmAval e m k,
      zero := (List.range (mmGroups d)).map fun g => !mmNogate d && s.tileZero e tile g }
  let fmt := (mmW e).format
  (List.range (mmNW d)).map fun n =>
    let key := accKey arr (mmHalf d) (mmRow0 d + j) n
    let prev := if mmAccInit d then 0 else s.accAt f key
    (key, passes.foldl (fun acc p =>
      passElem kind (mmK d) kp (!mmNogate d) p.aHigh a p.groups (fun i => cellVal fmt (kp / 128) p.cells i n) acc) prev)

/-- The byte runs of A for one window row, and of the rows of W that the passes load (R136: the weights of a skipped group
are not read). -/
def mmRowRuns (e : Issued) (m : Nat) : List (Nat × Nat) :=
  let d := e.words
  (mmA e).runs false (planeWin (mmAX0 d) (mmAY0 d + m) (mmK d) 1 (mmZ d 0) (mmZ d 1))
def mmWRuns (e : Issued) (skipped : Nat) : List (Nat × Nat) :=
  let d := e.words
  ((List.range (mmGroups d)).filter fun g => !maskHas skipped g).flatMap fun g =>
    (mmW e).runs false (planeWin (mmWX0 d) (mmWY0 d + (32 * g : Nat)) (mmNW d) (min 32 (mmK d - 32 * g)) (mmZ d 2) (mmZ d 3))

/-- Every row a matmul writes; a row that an uncorrectable error reached is undefined (R130). -/
def State.mmResults (s : State) (f : Nat) (r : MatRun) (passes : List Pass) : List (Nat × W32) × Option Nat :=
  let e := r.d
  let d := e.words
  let wue := if s.ue.isEmpty then none else s.ueRuns (mmWRuns e r.skipped)
  let rows := (mmArrays d).flatMap fun (arr, m0, n) => (List.range n).map fun j => (arr, m0, j)
  let res := rows.map fun (arr, m0, j) =>
    let ue := (s.ueRuns (mmRowRuns e (m0 + j))).orElse fun _ => wue
    if ue.isSome then
      ((List.range (mmNW d)).map fun n =>
        let key := accKey arr (mmHalf d) (mmRow0 d + j) n
        (key, Config.undefAcc (1000 + f) s.free key), ue)
    else (s.mmRow f e passes arr m0 j, none)
  (res.flatMap (·.1), res.findSome? (·.2))

/-- MXA_SPEC_CNT after a matmul with SPEC = 1 (R144): counted when it completes, once for a three-pass matmul (log entry
90, DESIGN CHOICE). -/
def specCount (w : W64) (n skipped missed : Nat) : W64 :=
  bumpFld (bumpFld (bumpFld w 0 32 (maskCount n skipped)) 32 16 missed) 48 16 missed

/-- Release the watch entries that a context of a fold holds at every base die; a demand entry holds them under
16 + its slot (R298). -/
def State.dropWatches (s : State) (f ctx : Nat) : State :=
  let s := { s with notes := s.notes.filter fun n => !(n.fold = f && n.ctx = ctx) }
  (List.range 20).foldl (fun s d =>
    if (s.die d).watch.any fun w => w.fold = f && w.ctx = ctx then
      s.updDie d fun v => { v with watch := v.watch.filter fun w => !(w.fold = f && w.ctx = ctx) }
    else s) s

/-- A matmul completes (R120, R127, R130, R135, R144). Its last pass's weights stay in the cells. RD_CLAMP counts each clamped
position of a three-pass matmul once (log entry 90, DESIGN CHOICE). -/
def opMatmulComplete (s : State) (f : Nat) : State :=
  match (s.fold f).matRun with
  | [] => s
  | r :: rest =>
    if !r.pending.isEmpty || !(s.fold f).clocked then s
    else
      let e := r.d
      let d := e.words
      let n := mmGroups d
      let obs := s.observed e
      let ps := s.mmPasses r
      let (vals, ue) := s.mmResults f r ps
      let last := (ps.getLast?.map (·.cells)).getD []
      let clamps := (mmA e).outsideCount (mmAX0 d) (mmAY0 d) (mmK d) (mmM d)
        + (mmW e).outsideCount (mmWX0 d) (mmWY0 d) (mmNW d) (mmK d)
      let missed := maskCount n r.miss
      let s := s.updFold f fun v => { v with
        matRun := rest, active := last, shadow := last,
        acc := vals.foldl (fun a kv => SMap.set none a kv.1 (some kv.2)) v.acc,
        spec := if r.useSpec then SMap.set none v.spec (mmSlot d) (some ⟨n, obs⟩) else v.spec,
        demand := if r.useSpec then v.demand.filter fun q => !(q.taken && q.slot = mmSlot d) else v.demand,
        regs := { v.regs with specCnt := if r.useSpec then specCount v.regs.specCnt n r.skipped missed
                                         else v.regs.specCnt } }
      let s := s.correctRuns (mmWRuns e r.skipped
        ++ (mmA e).runs false (planeWin (mmAX0 d) (mmAY0 d) (mmK d) (mmM d) (mmZ d 0) (mmZ d 1)))
      let s := if r.useSpec then s.dropWatches f (16 + mmSlot d) else s
      let s := if ue.isSome then { s with free := s.free + 1 } else s
      let s := (mmArrays d).foldl (fun s a => s.setHalf f a.1 (mmHalf d) { st := .full }) s
      let s := (s.countClamp f clamps 0).pmc f 0x10 (mmM d * ps.length)
      let s := match ue with
        | some u => s.consumeUE (16 + f) u
        | none => s
      if mmEvtEn d then s.evtApply f (mmEvt d) 1 else s

/-- SLOT_CLR and SPEC_EN: a write of MXA_CTL (R141). -/
def opMxaCtl (s : State) (f : Nat) (v : W64) : State :=
  s.updFold f fun x => { x with
    regs := { x.regs with specEn := bit v 0 },
    spec := if bit v 1 then [] else x.spec }

end Sys2Proof.Machine
end

