-- ==== Sys2Proof/Machine/Send.lean ====
section
/-!
DEFINITION. Sys2Proof/Machine/Send.lean: packets and the sending side of a port: header fields (R343), channel
queues, credits, the choice of the next packet (R348, R349) and frames (R336). One packet travels in each frame (log
entry 16).
-/
namespace Sys2Proof

/-! ### Header fields (R343) -/

def Packet.ptype (p : Packet) : Nat := Machine.fld p.w0 0 4
def Packet.vc (p : Packet) : Nat := Machine.fld p.w0 4 2
def Packet.len (p : Packet) : Nat := Machine.fld p.w0 6 10
def Packet.seq (p : Packet) : Nat := Machine.fld p.w0 16 16
def Packet.src (p : Packet) : Nat := Machine.fld p.w0 32 12
def Packet.fA (p : Packet) : Nat := Machine.fld p.w0 48 16
def Packet.addr (p : Packet) : Nat := Machine.fld p.w1 0 48
def Packet.fB (p : Packet) : Nat := Machine.fld p.w1 48 16
def Packet.tag (p : Packet) : Nat := Machine.fld p.w3 0 32
def Packet.fC (p : Packet) : Nat := Machine.fld p.w3 32 32

end Sys2Proof

namespace Sys2Proof.Machine

def vcACT : Nat := 0
def vcGRAD : Nat := 1
def vcRES : Nat := 2
def vcCTL : Nat := 3
/-- The key under which TIME and CREDIT packets, which travel only in header slots, are kept. -/
def vcHdr : Nat := 4

def ptDATA : Nat := 1
def ptRACC : Nat := 2
def ptSIGNAL : Nat := 3
def ptMSG : Nat := 4
def ptMIRROR : Nat := 5
def ptSTRIPE : Nat := 6
def ptTIME : Nat := 7
def ptCREDIT : Nat := 8

/-- A packet before its header is formed; the body is padded to whole units. SEQ and STAMP are set on sending. -/
def mkPacket (ty vc src a addr b tag c : Nat) (body : List Byte) : Packet :=
  let len := (body.length + 63) / 64
  { w0 := put 0 4 ty ||| put 4 2 vc ||| put 6 10 len ||| put 32 12 src ||| put 48 16 a,
    w1 := put 0 48 addr ||| put 48 16 b, w2 := 0, w3 := put 0 32 tag ||| put 32 32 c,
    body := body ++ List.replicate (len * 64 - body.length) 0 }

/-! ### Ports in service -/

/-- DRV_STS.STATE codes (R338). -/
def PortSt.code : PortSt → Nat
  | .down => 0
  | .training => 1
  | .held => 2
  | .active => 3
  | .reset => 4
  | .disabled => 5

/-- A port in service (R360): ACTIVE. -/
def State.inSvc (s : State) (p : Nat) : Bool := (s.port p).st = .active

/-- A port with a job role (R427, R458): not NONE and not AUX. -/
def State.jobPort (s : State) (p : Nat) : Bool := (s.port p).role ≠ 0 && (s.port p).role ≠ 6

/-- The port that has a role (R330: at most one). -/
def State.portOf (s : State) (role : Nat) : Option Nat := firstIdx 6 fun p => (s.port p).role = role

/-- Whether a port's state lets a channel's packets leave (R338). -/
def PortSt.sends (st : PortSt) (vc : Nat) : Bool :=
  match st with
  | .active => true
  | .held => vc = vcCTL || vc = vcHdr
  | .training => vc = vcHdr
  | _ => false

/-! ### The next packet (R349) -/

def Port.queue (x : Port) (vc : Nat) : List TxPkt := SMap.get [] x.txq vc

/-- A channel has a packet and the credits for it. -/
def Port.canSend (x : Port) (vc : Nat) : Bool :=
  x.st.sends vc && match x.queue vc with
    | t :: _ => vc = vcHdr || t.pkt.len < SMap.get 0 x.credits vc
    | [] => false

/-- The weight of a channel (R366). -/
def Port.weight (x : Port) (vc : Nat) : Nat := fld x.regs.vcCfg (48 + 4 * vc) 4

/-- Deficit round robin over ACT, GRAD and RES: the channel that sends next, and the port with its counters. -/
def Port.drr : Nat → Port → Option (Nat × Port)
  | 0, _ => none
  | n + 1, x =>
    let vc := x.turn % 3
    if x.canSend vc then
      let cost := match x.queue vc with
        | t :: _ => 64 * t.pkt.len
        | [] => 0
      let d := SMap.get 0 x.deficit vc
      if cost ≤ d then some (vc, { x with deficit := SMap.set 0 x.deficit vc (d - cost) })
      else Port.drr n { x with
        deficit := SMap.set 0 x.deficit vc (d + 1024 * max 1 (x.weight vc)), turn := (vc + 1) % 3 }
    else Port.drr n { x with deficit := SMap.set 0 x.deficit vc 0, turn := (vc + 1) % 3 }

def Port.pick (x : Port) : Option (Nat × Port) :=
  if x.canSend vcHdr then some (vcHdr, x)
  else if x.canSend vcCTL then some (vcCTL, x)
  else if x.canSend 0 || x.canSend 1 || x.canSend 2 then x.drr 64
  else none

/-- The PKT_TX or PKT_RX record of a packet (R611, R612, R614). -/
def State.pktRec (s : State) (p kind : Nat) (k : Packet) : State :=
  let c := (s.trc 0).ctl
  let ty := k.ptype
  let sel := fld c 6 2
  let wanted := (sel = 1 && (ty = ptSIGNAL || ty = ptMSG)) || (sel = 2 && ty ≠ ptCREDIT && ty ≠ ptTIME)
  let hidden := s.sec.debug < 2 && (k.vc = vcRES || (ty = ptMSG && 0x10 ≤ k.fA % 256 && k.fA % 256 < 0x40))
  if wanted && !hidden then
    let p0 := put 0 44 k.w0.toNat
    s.hubRec kind (8 + p) [p0, put 0 48 k.addr,
      if kind = 0x20 then put 0 32 k.tag else k.w2]
  else s

/-- A RACC packet leaves: its body counts in BYTES_SENT of its instance, also once that has completed (R414). -/
def State.raccSent (s : State) (k : Packet) : State :=
  if k.ptype ≠ ptRACC then s
  else
    let plan := k.fA % 1024
    let v := k.fC / 65536
    let n := 64 * k.len
    let mine := fun (x : Inst) => decide (x.plan = plan) && decide (x.step % 65536 = v)
    let ended := !(s.col.insts.any fun x => mine x && !x.done) && fld (SMap.get 0 s.col.planRec (8 * plan)) 0 48 % 65536 = v
    { s with col := { s.col with
      insts := s.col.insts.map fun x => if mine x then { x with bytes := x.bytes + n } else x,
      planRec := if ended then SMap.upd 0 s.col.planRec (8 * plan + 5) (· + BitVec.ofNat 64 n) else s.col.planRec } }

/-- Send the chosen packet in the next frame: its header takes SEQ and STAMP now (R343). -/
def State.sendOne (s : State) (p vc : Nat) (x : Port) : State :=
  match x.queue vc with
  | [] => s
  | t :: rest =>
    let isCredit := t.pkt.ptype = ptCREDIT
    let k := { t.pkt with w0 := setFld t.pkt.w0 16 16 x.seq, w2 := BitVec.ofNat 64 s.now }
    let x := { x with
      txq := SMap.set [] x.txq vc rest,
      credits := if vc = vcHdr then x.credits else SMap.upd 0 x.credits vc (· - (1 + k.len)),
      seq := if isCredit then x.seq else (x.seq + 1) % 65536,
      timeReq := if k.ptype = ptTIME && k.fA = 0 then x.timeReq ++ [k.w2] else x.timeReq,
      unacked := x.unacked ++ [{ fseq := x.fseqOut, pkt := { t with pkt := k }, sentAt := s.now }],
      fseqOut := (x.fseqOut + 1) % 65536 }
    ((s.setPort p x).raccSent k).pktRec p 0x20 k

/-- Send while there are packets, credits and room for unacknowledged frames (R336). -/
def State.pumpN : Nat → State → Nat → State
  | 0, s, _ => s
  | n + 1, s, p =>
    let x := s.port p
    if 64 ≤ x.unacked.length then s
    else match x.pick with
      | some (vc, x') => State.pumpN n (s.sendOne p vc x') p
      | none => s

def State.pump (s : State) (p : Nat) : State := State.pumpN 64 s p

/-- Queue a packet on a port and send what can be sent. -/
def State.send (s : State) (p : Nat) (k : Packet) (owner : Option (Nat × Nat × Nat) := none) : State :=
  let vc := if k.ptype = ptTIME || k.ptype = ptCREDIT then vcHdr else k.vc
  (s.updPort p fun x => { x with txq := SMap.upd [] x.txq vc (· ++ [{ pkt := k, owner := owner }]) }).pump p

/-- A SIGNAL packet: slot, logical fold, amount (R344). -/
def mkSignal (vc src slot lfold amt tag : Nat) : Packet :=
  mkPacket ptSIGNAL vc src slot 0 lfold tag amt []

/-- A control record of the resilience engine (R426): a STRIPE packet with OP = CTRL. TARGET names the member a
SHARE_ACK or SNAP_OWN is for, and the receiving device for every other kind (R442; log entry 35). -/
def mkCtrl (kind step : Nat) (ws : List W64) (target : Nat := 0x1F) : Packet :=
  mkPacket ptSTRIPE vcRES 0 (1 <<< 9 ||| target) 0 0 0 0
    (wordsBytes ((put 0 8 kind ||| put 8 4 1 ||| put 16 48 step) :: (List.range 7).map fun i => wd ws i))

/-- Send a control record on every job port for which a test holds. -/
def State.ctrlAll (s : State) (kind step : Nat) (ws : List W64) (ok : Nat → Bool) : State :=
  (List.range 6).foldl (fun s p => if s.jobPort p && ok p then s.send p (mkCtrl kind step ws) else s) s

end Sys2Proof.Machine
end

