-- ==== Sys2Proof/Machine/Sfn.lean ====
section
/-!
DEFINITION. Sys2Proof/Machine/Sfn.lean: the special functions and division (chapter 06, R187–R197). The manual fixes
exact results at special arguments, an error bound everywhere else, and which functions are monotone (R191), not the ROM
tables. So an approximated result is one of the FP32 patterns that lie within the bound of the exact value. For a function
that is not monotone a constant without a value chooses it (Config.sfnPick). For a monotone one a constant without a value
gives, for each result, the least argument at which the function has reached it (Config.sfnStep): that makes every such
function monotone, and leaves it free otherwise (log entry 14). The segments of R187 and R190 have no effect of their own:
their coefficients are not given. The exact value is held as an integer times 2^-512, far more digits than the bound needs.
-/
namespace Sys2Proof.Machine

/-! ### Fixed point with 512 fractional bits -/

def fxOne : Int := 2 ^ 512
/-- pi × 2^512. -/
def fxPi : Int := 42121870893450636219446821484559388105255997313489254605594685088103805782276098919793885372247726346443771296916333485327292916625599161542353774203832599
/-- ln 2 × 2^512. -/
def fxLn2 : Int := 9293584264128987901384440660653081117630633404975079641076009770578364573633075645167623918067512986930843040596952636663673675798576024949780480621393957

/-- m × 2^e as fixed point. -/
def toFx (m : Nat) (e : Int) : Int :=
  if 0 ≤ e + 512 then (m <<< (e + 512).toNat : Nat) else (m >>> (-(e + 512)).toNat : Nat)
def fxMul (a b : Int) : Int := a * b / fxOne
def fxDiv (a b : Int) : Int := if b = 0 then 0 else a * fxOne / b
def fxSqrt (a : Int) : Int := (natSqrt (a.toNat * 2 ^ 512) : Nat)
where
  /-- Integer square root by Newton's iteration from above. -/
  natSqrt (n : Nat) : Nat :=
    if n = 0 then 0
    else go 1100 n (2 ^ (Nat.log2 n / 2 + 1))
  go : Nat → Nat → Nat → Nat
    | 0, _, x => x
    | k + 1, n, x => let y := (x + n / x) / 2; if x ≤ y then x else go k n y

/-- e^t = m × 2^n with m in [1, 2) as fixed point. -/
def fxExp (t : Int) : Int × Int :=
  let n := t / fxLn2
  let r := t - n * fxLn2
  let (_, s) := (List.range 64).foldl (fun (p : Int × Int) (k : Nat) =>
    let u := fxMul p.1 r / ((k : Int) + 1)
    (u, p.2 + u)) (fxOne, fxOne)
  (s, n)

/-- e^t as fixed point. -/
def fxExpAbs (t : Int) : Int :=
  let (m, n) := fxExp t
  if 0 ≤ n then m * 2 ^ n.toNat else m / 2 ^ (min 2000 (-n).toNat)

/-- ln x of a positive x. -/
def fxLn (x : Int) : Int :=
  let l := Nat.log2 x.toNat
  let u := if 512 ≤ l then x / 2 ^ (l - 512) else x * 2 ^ (512 - l)
  let ex : Int := (l : Int) - 512
  let (u, ex) := if 3 * fxOne ≤ 2 * u then (u / 2, ex + 1) else (u, ex)
  let z := fxDiv (u - fxOne) (u + fxOne)
  let z2 := fxMul z z
  let (_, s) := (List.range 60).foldl (fun (p : Int × Int) (k : Nat) =>
    (fxMul p.1 z2, p.2 + p.1 / (2 * (k : Int) + 1))) (z, 0)
  ex * fxLn2 + 2 * s

/-- The sine of r in [−pi/4, pi/4]; `start` 1 and first term r. The cosine starts at 0 with first term 1. -/
def fxTrig (start : Nat) (first r : Int) : Int :=
  let r2 := fxMul r r
  let (_, s) := (List.range 40).foldl (fun (p : Int × Int) (k : Nat) =>
    (-(fxMul p.1 r2) / (((2 * k + start + 1) * (2 * k + start + 2) : Nat) : Int), p.2 + p.1)) (first, 0)
  s

/-- The sum of (−q)^n × x / (n! × (2n + 1)). -/
def fxErfSum (q x : Int) : Int :=
  let (_, s) := (List.range 700).foldl (fun (p : Int × Int) (k : Nat) =>
    (-(fxMul p.1 q) / ((k : Int) + 1), p.2 + p.1 / (2 * (k : Int) + 1))) (x, 0)
  s

/-- The normal distribution function at x, |x| ≤ 15. -/
def fxPhi (x : Int) : Int := fxOne / 2 + fxDiv (fxErfSum (fxMul x x / 2) x) (fxSqrt (2 * fxPi))

/-! ### Results within a bound -/

/-- A magnitude pattern lies within half/2 ulp of y = m × 2^e, the ulp being R189's; 0x7F800000 counts as 2^128. -/
def withinUlp (half : Nat) (m : Nat) (e : Int) (pat : Nat) : Bool :=
  let q := max ((Nat.log2 m : Int) + e) (-126) - 23
  let c : Val := if pat = 0x7F800000 then .fin false 1 128 else fmtFP32.decode pat
  match (c.add (.fin true m e)).abs.cmp (.fin false half (q - 1)) with
  | some .gt => false
  | none => false
  | _ => true

/-- The magnitudes within the bound, the correctly rounded one first, others only where `ok` admits them. -/
def sfnCands (half : Nat) (ok : Nat → Bool) (m : Nat) (e : Int) : List Nat :=
  let c := min (fmtFP32.rne (.fin false m e)) 0x7F800000
  ([c, c + 1, c - 1, c + 2, c - 2].filter fun p => p ≤ 0x7F800000 && withinUlp half m e p && ok p).eraseDups

/-- The chosen result, with its sign. -/
def sfnChoose (pick : Nat) (half : Nat) (ok : Nat → Bool) (neg : Bool) (m : Nat) (e : Int) : W32 :=
  let cs := sfnCands half ok m e
  BitVec.ofNat 32 (fmtFP32.withSign neg (cs.getD (pick % max cs.length 1) (fmtFP32.rne (.fin false m e))))

/-- The patterns of FP32 numbers in the order of their values: −p for a negative number of magnitude pattern p. -/
def ord32 (x : W32) : Int := if bit x 31 then -((x.toNat % 2 ^ 31 : Nat) : Int) else (x.toNat : Int)
def ofOrd (v : Int) : W32 := BitVec.ofNat 32 (fmtFP32.withSign (v < 0) v.natAbs)

/-- The least and the greatest magnitude within the bound of y = m × 2^e; next above a power of two, not below the number
before it, to which values under the power of two already hold a monotone function (log entry 14). -/
def sfnSpan (half m : Nat) (e : Int) : Nat × Nat :=
  let c := min (fmtFP32.rne (.fin false m e)) 0x7F800000
  let ps := ((List.range 7).map fun i => c + 3 - i).filter fun p => p ≤ 0x7F800000 && withinUlp half m e p
  let pow := fmtFP32.rne (.fin false 1 ((Nat.log2 m : Int) + e))
  (max (pow - 1) (ps.foldl min c), ps.foldl max c)

/-- Go up from a result while the argument has reached the next one. -/
def sfnWalk (fn : Nat) (key : Int) : Nat → Int → Int
  | 0, v => v
  | n + 1, v => if Config.sfnStep fn (v + 1) ≤ key then sfnWalk fn key n (v + 1) else v

/-- The result of a monotone function whose exact value is (−1)^neg × m × 2^e, held between two results that the function
has at arguments on either side (R193, R195, the forms of R187). `key` orders the arguments: upwards for an increasing
function, downwards for a decreasing one. -/
def sfnMono (fn half : Nat) (floor ceil key : Int) (neg : Bool) (m : Nat) (e : Int) : W32 :=
  let (lo, hi) := sfnSpan half m e
  let (a, b) : Int × Int := if neg then (-(hi : Int), -(lo : Int)) else ((lo : Int), (hi : Int))
  let b := min b ceil
  let a := min b (max a floor)
  ofOrd (sfnWalk fn key (b - a).toNat a)

/-- m × 2^e compared with the fraction a / b. -/
def geFrac (m : Nat) (e : Int) (a b : Nat) : Bool :=
  if 0 ≤ e then decide (a ≤ (m <<< e.toNat) * b) else decide (a <<< (-e).toNat ≤ m * b)

def isPow2 (m : Nat) : Bool := m = 2 ^ Nat.log2 m

/-! ### The functions (R187, R193, R195) -/

def f32Half : W32 := 0x3F000000#32
def f32Zero (neg : Bool) : W32 := BitVec.ofNat 32 (fmtFP32.withSign neg 0)
def f32OneS (neg : Bool) : W32 := BitVec.ofNat 32 (fmtFP32.withSign neg 0x3F800000)

/-- A fixed-point value as sign, magnitude and exponent. -/
def fxVal (v : Int) : Bool × Nat × Int := (v < 0, v.natAbs, -512)

/-- Neither zero nor infinity. -/
def finiteNonzero (p : Nat) : Bool := p ≠ 0 && p ≠ 0x7F800000

/-- The greatest finite number, and the pattern of 2^n. -/
def ordMax : Int := 0x7F7FFFFF
def ordPow (n : Int) : Int := (fmtFP32.rne (.fin false 1 n) : Nat)

/-- The greatest argument below 2^-12, at which the small forms of R187 end. -/
def f32Small : W32 := 0x397FFFFF#32

/-- EXP of a finite non-zero argument; EXP(0) = 1 lies between (R193). -/
def sfnExpF (neg : Bool) (m : Nat) (e : Int) : W32 :=
  let x := fmtFP32.rne (.fin false m e)
  if !neg && 0x42B17218 ≤ x then f32Inf false
  else if neg && 0x42CFF1B5 ≤ x then f32Zero false
  else
    let t := toFx m e
    let (k, n) := fxExp (if neg then -t else t)
    let key : Int := if neg then -(x : Int) else (x : Int)
    sfnMono 1 2 (if neg then 1 else ordPow 0) (if neg then ordPow 0 else ordMax) key false k.toNat (n - 512)

/-- SIGMOID as a magnitude: e^−|x| scaled or not, over 1 + e^−|x|. -/
def fxSigmoid (neg : Bool) (m : Nat) (e : Int) : Nat × Int :=
  let (k, n) := fxExp (-(toFx m e))
  let ex := k / 2 ^ (min 2000 (-n).toNat)
  if neg then ((fxDiv k (fxOne + ex)).toNat, n - 512) else ((fxDiv fxOne (fxOne + ex)).toNat, -512)

/-- SIN (quarter 0) and COS (quarter 1): the result where the sin kernel returns r, which is rounded once (log entry 14);
the sign and magnitude. -/
def fxCircle (quarter : Int) (neg : Bool) (m : Nat) (e : Int) : Option W32 × Bool × Nat × Int :=
  let x := if neg then -(toFx m e) else toFx m e
  let n := (4 * x + fxPi) / (2 * fxPi)
  let r := x - n * fxPi / 2
  let k := (n + quarter) % 4
  let v := if k % 2 = 0 then fxTrig 1 r r else fxTrig 0 fxOne r
  let (g, y, q) := fxVal (if 2 ≤ k then -v else v)
  (if k % 2 = 0 && r.natAbs < 2 ^ 500 then some (toF32 (.fin ((r < 0) != (2 ≤ k)) r.natAbs (-512))) else none, g, y, q)

/-- The forms below 2^-12 of SIGMOID, GELU, SOFTPLUS and ERF (R187), rounded once (log entry 14). -/
def smallSigmoid (x : W32) : W32 := fFma x 0x3E800000#32 f32Half
def smallGelu (neg : Bool) (m : Nat) (e : Int) : W32 :=
  let x := if neg then -(toFx m e) else toFx m e
  let c := fxOne / 2 + fxDiv x (fxSqrt (2 * fxPi))
  toF32 (.fin neg (m * c.toNat) (e - 512))
def smallSoftplus (neg : Bool) (m : Nat) (e : Int) : W32 :=
  let x := if neg then -(toFx m e) else toFx m e
  toF32 (.fin false (fxLn2 + x / 2).toNat (-512))
def smallErf (neg : Bool) (m : Nat) (e : Int) : W32 :=
  toF32 (.fin neg (m * (fxDiv (2 * fxOne) (fxSqrt fxPi)).toNat) (e - 512))
def smallLog1p (neg : Bool) (m : Nat) (e : Int) : W32 :=
  toF32 ((Val.fin neg m e).add (.fin true (m * m) (2 * e - 1)))

/-- A small form at the last argument it serves, of one sign. -/
def atSmall (g : Bool → Nat → Int → W32) (neg : Bool) : Int := ord32 (g neg 0xFFFFFF (-36))


/-- A function of a finite non-zero argument (−1)^neg × m × 2^e whose pattern is x. -/
def sfnFinite (fn : Nat) (x : W32) (neg : Bool) (m : Nat) (e : Int) : W32 :=
  let pick := Config.sfnPick fn x.toNat
  let pickAbs := Config.sfnPick fn (x.toNat % 2 ^ 31)
  let key := ord32 x
  let mag := ((x.toNat % 2 ^ 31 : Nat) : Int)
  let lg := (Nat.log2 m : Int) + e
  let small := !geFrac m e 1 4096
  let any := fun (_ : Nat) => true
  let signed := fun (n : Int) => ord32 (toF32 (Val.ofInt n))
  match fn with
  | 0x0 =>  -- EXP2
    if !neg && geFrac m e 128 1 then f32Inf false
    else if neg && geFrac m e 150 1 then f32Zero false
    else if 0 ≤ e ∨ m % 2 ^ (-e).toNat = 0 then
      let n : Int := roundInt .rtz m e
      toF32 (.fin false 1 (if neg then -n else n))
    else
      let t := fxMul (toFx m e) fxLn2
      let (k, n) := fxExp (if neg then -t else t)
      let w : Int := roundInt .rtz m e
      let fl := if neg then -w - 1 else w
      sfnMono fn 2 (max 1 (ordPow fl)) (min ordMax (ordPow (fl + 1))) key false k.toNat (n - 512)
  | 0x1 => sfnExpF neg m e
  | 0x2 =>  -- LOG2
    if neg then f32NaN
    else if isPow2 m then toF32 (Val.ofInt lg)
    else
      let (g, k, q) := fxVal (fxDiv (fxLn (toFx m e)) fxLn2)
      sfnMono fn 2 (signed lg) (signed (lg + 1)) key g k q
  | 0x3 =>  -- LOG
    if neg then f32NaN
    else if isPow2 m ∧ lg = 0 then f32Zero false
    else
      let (g, k, q) := fxVal (fxLn (toFx m e))
      sfnMono fn 2 (-ordMax) ordMax key g k q
  | 0x4 =>  -- RECIP
    if isPow2 m && decide (lg ≤ -128) then f32Inf neg
    else if lg < -128 then f32Inf neg
    else if isPow2 m && decide (-126 ≤ lg) && decide (lg ≤ 126) then toF32 (.fin neg 1 (-lg))
    else
      let hi := if 126 ≤ lg then 0x7FFFFF else if lg < -126 then ordMax else ordPow (-lg)
      let lo := if lg < -126 then ordPow 126 else max 1 (ordPow (-lg - 1) - (if 125 < lg then 1 else 0))
      let r := sfnMono fn 2 lo hi (-mag) false (2 ^ 300 / m) (-300 - e)
      BitVec.ofNat 32 (fmtFP32.withSign neg r.toNat)
  | 0x5 =>  -- SQRT
    if neg then f32NaN
    else if isPow2 m ∧ lg % 2 = 0 then toF32 (.fin false 1 (lg / 2))
    else sfnMono fn 2 (ordPow (lg / 2)) (ordPow (lg / 2 + 1)) key false (fxSqrt (toFx m e)).toNat (-512)
  | 0x6 =>  -- RSQRT
    if neg then f32NaN
    else if isPow2 m ∧ lg % 2 = 0 then toF32 (.fin false 1 (-(lg / 2)))
    else sfnMono fn 2 (ordPow (-(lg / 2) - 1)) (ordPow (-(lg / 2))) (-key) false
      (fxDiv fxOne (fxSqrt (toFx m e))).toNat (-512)
  | 0x7 =>  -- SIGMOID
    if small then smallSigmoid x
    else if !neg && geFrac m e 35 2 then f32One
    else if neg && geFrac m e 24 1 then sfnExpF neg m e
    else
      let (k, q) := fxSigmoid neg m e
      if neg then sfnMono fn 3 (ord32 (sfnExpF true 24 0)) (ord32 (smallSigmoid (fNeg f32Small))) key false k q
      else sfnMono fn 3 (ord32 (smallSigmoid f32Small)) (ordPow 0) key false k q
  | 0x8 =>  -- TANH
    if small then x
    else if geFrac m e 902 100 then f32OneS neg
    else
      let t := fxExpAbs (2 * toFx m e)
      let r := sfnMono fn 3 (ord32 f32Small) (ordPow 0) mag false (fxDiv (t - fxOne) (t + fxOne)).toNat (-512)
      BitVec.ofNat 32 (fmtFP32.withSign neg r.toNat)
  | 0x9 =>  -- SILU
    if !neg && geFrac m e 35 2 then x
    else
      let (m', e') := if neg && geFrac m e 400 1 then (400, (0 : Int)) else (m, e)
      let (k, q) := fxSigmoid neg m' e'
      sfnChoose pick 3 any neg (m' * k) (e' + q)
  | 0xA =>  -- GELU
    if small then smallGelu neg m e
    else if !neg && geFrac m e 55 10 then x
    else if neg && geFrac m e 144 10 then f32Zero true
    else
      let t := toFx m e
      let p := fxPhi (if neg then -t else t)
      sfnChoose pick 3 finiteNonzero neg (m * p.toNat) (e - 512)
  | 0xB =>  -- SOFTPLUS
    if small then smallSoftplus neg m e
    else if !neg && geFrac m e 15 1 then x
    else if neg && geFrac m e 17 1 then sfnExpF neg m e
    else
      let t := toFx m e
      let (g, k, q) := fxVal (fxLn (fxOne + fxExpAbs (if neg then -t else t)))
      if neg then sfnMono fn 3 (ord32 (sfnExpF true 17 0)) (atSmall smallSoftplus true) key g k q
      else sfnMono fn 3 (atSmall smallSoftplus false) (signed 15) key g k q
  | 0xC =>  -- ERF
    if small then smallErf neg m e
    else if geFrac m e 392 100 then f32OneS neg
    else
      let t := toFx m e
      let r := sfnMono fn 3 (atSmall smallErf false) (ordPow 0) mag false
        (m * (fxDiv (2 * fxErfSum (fxMul t t) fxOne) (fxSqrt fxPi)).toNat) (e - 512)
      BitVec.ofNat 32 (fmtFP32.withSign neg r.toNat)
  | 0xD =>  -- SIN
    if small then x
    else
      match fxCircle 0 false m e with
      | (some r, _, _, _) => if neg then fNeg r else r
      | (none, g, k, q) => sfnChoose pickAbs 3 any (g != neg) k q
  | 0xE =>  -- COS
    match fxCircle 1 false m e with
    | (some r, _, _, _) => r
    | (none, g, k, q) => sfnChoose pickAbs 3 any g k q
  | _ =>    -- LOG1P
    if neg && isPow2 m && lg = 0 then f32Inf true
    else if neg && geFrac m e 1 1 then f32NaN
    else if small then smallLog1p neg m e
    else
      let t := toFx m e
      let (g, k, q) := fxVal (fxLn (fxOne + (if neg then -t else t)))
      if neg then sfnMono fn 3 (-ordMax) (atSmall smallLog1p true) key g k q
      else sfnMono fn 3 (atSmall smallLog1p false) ordMax key g k q

/-- The result at ±0 (R195). -/
def sfnZero (fn : Nat) (neg : Bool) : W32 :=
  match fn with
  | 0x0 | 0x1 | 0xE => f32One
  | 0x2 | 0x3 => f32Inf true
  | 0x4 | 0x6 => f32Inf neg
  | 0x7 => f32Half
  | 0xB => 0x3F317218#32
  | _ => f32Zero neg

/-- The result at ±infinity (R195). -/
def sfnInf (fn : Nat) (neg : Bool) : W32 :=
  match fn with
  | 0x0 | 0x1 | 0xB => if neg then f32Zero false else f32Inf false
  | 0x2 | 0x3 | 0x5 | 0xF => if neg then f32NaN else f32Inf false
  | 0x4 => f32Zero neg
  | 0x6 => if neg then f32NaN else f32Zero false
  | 0x7 => if neg then f32Zero false else f32One
  | 0x8 | 0xC => f32OneS neg
  | 0x9 | 0xA => if neg then f32Zero true else f32Inf false
  | _ => f32NaN

/-- An SFN stage's result (R187–R195). -/
def sfn (fn : Nat) (x : W32) : W32 :=
  match f32 x with
  | .nan => f32NaN
  | .inf neg => sfnInf fn neg
  | .fin neg m e => if m = 0 then sfnZero fn neg else sfnFinite fn x neg m e

/-- A DIV stage's result (R197). -/
def fDiv (a b : W32) : W32 :=
  match f32 a, f32 b with
  | .nan, _ => f32NaN
  | _, .nan => f32NaN
  | .inf _, .inf _ => f32NaN
  | .inf p, .fin q _ _ => f32Inf (p != q)
  | .fin p _ _, .inf q => f32Zero (p != q)
  | .fin p m e, .fin q k g =>
    if k = 0 then (if m = 0 then f32NaN else f32Inf (p != q))
    else if m = 0 then f32Zero (p != q)
    else sfnChoose (Config.divPick a.toNat b.toNat) 3 (fun _ => true) (p != q) (m * 2 ^ 200 / k) (e - g - 200)

/-- A finite value divided by an exact count, rounded as DIV rounds (R201). -/
def fDivCount (a : W32) (n : Nat) : W32 :=
  match f32 a with
  | .fin p m e =>
    if m = 0 || n = 0 then f32Zero p
    else sfnChoose (Config.divPick a.toNat (2 ^ 32 + n)) 3 (fun _ => true) p (m * 2 ^ 200 / n) (e - 200)
  | .inf p => f32Inf p
  | .nan => f32NaN

/-- A positive fraction of integers rounded once to FP32 (R201: the quotients of counts). -/
def ratF32 (a b : Nat) : W32 :=
  let q := a * 2 ^ 100 / b
  toF32 (.fin false (2 * q + (if a * 2 ^ 100 % b = 0 then 0 else 1)) (-101))

end Sys2Proof.Machine
end

