-- ==== Sys2Proof/Machine/Vector.lean ====
section
/-!
DEFINITION. Sys2Proof/Machine/Vector.lean: chain descriptors, stage lists, what a chain computes and writes, chain
start and completion, and codebook tables (chapters 05 and 06). What a chain writes is computed when it completes
(log entry 11).
-/
namespace Sys2Proof.Machine

/-! ### Descriptor fields (R146) -/

def chSrcAcc (d : List W64) : Bool := bit (wd d 0) 12
def chRel (d : List W64) : Bool := bit (wd d 0) 13
def chEvtEn (d : List W64) : Bool := bit (wd d 0) 14
def chRnd (d : List W64) : Nat := fld (wd d 0) 15 2
def chSat (d : List W64) : Bool := bit (wd d 0) 17
def chPack (d : List W64) : Bool := bit (wd d 0) 18
def chIntm (d : List W64) : Bool := bit (wd d 0) 19
def chAuxOut (d : List W64) : Bool := bit (wd d 0) 20
def chAccInt (d : List W64) : Bool := bit (wd d 0) 21
def chNstg (d : List W64) : Nat := fld (wd d 1) 48 4
def chAuxStg (d : List W64) : Nat := fld (wd d 1) 52 3
def chAuxSel (d : List W64) : Bool := bit (wd d 1) 55
def chEvt (d : List W64) : Nat := fld (wd d 1) 56 6
def chArr (d : List W64) : Nat := fld (wd d 2) 48 1
def chHalf (d : List W64) : Nat := fld (wd d 2) 49 1
def chRow0 (d : List W64) : Nat := fld (wd d 2) 50 9
def chX0 (d : List W64) : Int := sext 32 (fld (wd d 6) 0 32)
def chY0 (d : List W64) : Int := sext 32 (fld (wd d 6) 32 32)
def chNX (d : List W64) : Nat := fld (wd d 7) 0 32
def chNY (d : List W64) : Nat := fld (wd d 7) 32 32

/-- Reserved fields, those that clear flags reserve included; IN1_PTR and IN2_PTR are judged with the stage list. -/
def chReserved (d : List W64) : Bool :=
  fld (wd d 0) 22 10 ≠ 0 || chRnd d = 3 || fld (wd d 1) 62 2 ≠ 0 || fld (wd d 2) 59 5 ≠ 0
  || fld (wd d 3) 48 16 ≠ 0 || fld (wd d 4) 48 16 ≠ 0 || fld (wd d 5) 48 16 ≠ 0
  || (!chEvtEn d && chEvt d ≠ 0) || (!chAuxOut d && (chAuxStg d ≠ 0 || chAuxSel d))
  || (chAuxSel d && chAuxStg d ≠ 0)
  || (if chSrcAcc d then fld (wd d 2) 0 48 ≠ 0 else fld (wd d 2) 48 11 ≠ 0 || chAccInt d)

/-! ### Stages (R150–R154) -/

/-- One stage word (R151). -/
structure Stage where
  op  : Nat
  sa  : Nat
  sb  : Nat
  sc  : Nat
  md  : Nat
  fn  : Nat
  deriving DecidableEq, Repr

def stageWord (ws : List W64) (i : Nat) : Nat := fld (wd ws (1 + i / 2)) (32 * (i % 2)) 32

def Stage.ofNat (n : Nat) : Stage :=
  ⟨n % 64, n / 2 ^ 6 % 32, n / 2 ^ 11 % 32, n / 2 ^ 16 % 32, n / 2 ^ 21 % 8, n / 2 ^ 24 % 16⟩

def stagesOf (ws : List W64) (n : Nat) : List Stage := (List.range n).map fun i => Stage.ofNat (stageWord ws i)

def opRSTAT : Nat := 0x20
def opSCAN : Nat := 0x28
def opCBLK : Nat := 0x18

/-- Which of SA, SB, SC, MOD and FN an operation uses (R153, R174); none for a reserved OPC. -/
def Stage.uses (t : Stage) : Option (Bool × Bool × Bool × Bool × Bool) :=
  match t.op with
  | 0x01 | 0x08 | 0x09 => some (true, false, false, false, false)
  | 0x02 | 0x03 | 0x04 | 0x06 | 0x07 | 0x10 => some (true, true, false, false, false)
  | 0x05 | 0x0A | 0x0B => some (true, true, true, false, false)
  | 0x0C => some (true, true, false, true, false)
  | 0x11 => some (true, false, false, false, true)
  | 0x18 => some (true, false, false, true, true)
  | 0x20 => some (true, true, false, false, true)
  | 0x28 => some (true, t.fn ≠ 1 && t.fn ≠ 2, true, true, true)
  | _ => none

/-- The operand selects an operation uses. -/
def Stage.selects (t : Stage) : List Nat :=
  match t.uses with
  | some (a, b, c, _, _) => (if a then [t.sa] else []) ++ (if b then [t.sb] else []) ++ (if c then [t.sc] else [])
  | none => []

def Stage.isSF (t : Stage) : Bool := t.op = 0x10 || t.op = 0x11

/-- The checks of one stage (R156 step 2). -/
def Stage.check (t : Stage) : Status :=
  match t.uses with
  | none => .unsupported
  | some (a, b, c, m, f) => firstFail [
      ((!a && t.sa ≠ 0) || (!b && t.sb ≠ 0) || (!c && t.sc ≠ 0) || (!m && t.md ≠ 0) || (!f && t.fn ≠ 0)
        || (t.op = opSCAN && 4 ≤ t.md), .reservedNonzero),
      (t.selects.any (0x16 < ·) || (t.op = 0x0C && 5 < t.md) || (t.op = opRSTAT && 4 < t.fn)
        || (t.op = opSCAN && (2 < t.fn || t.md % 4 = 3 || (t.md % 4 = 1 && t.fn ≠ 0))), .unsupported)]

/-- Step 2 of R156: the stage list, then the two input pointers. -/
def stageListCheck (d ws : List W64) : Status :=
  let n := chNstg d
  let sts := stagesOf ws n
  let bad := fld (wd ws 0) 12 20 ≠ 0 || (List.range 8).any fun i =>
    if i < n then stageWord ws i / 2 ^ 28 ≠ 0 else stageWord ws i ≠ 0
  (commonChecks ws [0x21] bad).andThen fun _ =>
  (match sts.find? (fun (t : Stage) => t.check ≠ Status.ok) with
    | some t => t.check
    | none => Status.ok).andThen fun _ =>
  let used := sts.flatMap Stage.selects
  if (!used.contains 1 && fld (wd d 3) 0 48 ≠ 0)
    || (!used.contains 2 && !chAuxOut d && fld (wd d 4) 0 48 ≠ 0) then .reservedNonzero else .ok

def rstatAt (sts : List Stage) : Option Nat := firstIdx sts.length fun i => ((sts.getD i ⟨0, 0, 0, 0, 0, 0⟩).op = opRSTAT)
def scanAt (sts : List Stage) : Option Nat := firstIdx sts.length fun i => ((sts.getD i ⟨0, 0, 0, 0, 0, 0⟩).op = opSCAN)

/-- A chain whose SCAN stage takes its initial state from OUT (R175). -/
def usesPrev (sts : List Stage) : Bool := sts.any fun t => t.op = opSCAN && t.md % 4 = 2

/-- The tensors a chain names: IN0, IN1, IN2 and OUT, each where it is used. -/
def chainTensors (d : List W64) (sts : List Stage) : List Nat :=
  let used := sts.flatMap Stage.selects
  (if chSrcAcc d then [] else [0]) ++ (if used.contains 1 then [1] else [])
  ++ (if used.contains 2 || chAuxOut d then [2] else []) ++ [3]

/-- Whether a select names a CB4 tensor. -/
def isCb4 (d : List W64) (ts : Nat → TDesc) (sel : Nat) : Bool :=
  sel ≤ 2 && !(sel = 0 && chSrcAcc d) && (ts sel).fmt = 0x13

/-- The rules of R155, and R152's of IN2. `ok` says that a tensor's own header passes, so that its fields may be
inspected before its own check (R96). -/
def chainRules (d : List W64) (sts : List Stage) (ts : Nat → TDesc) (ok : Nat → Bool) : Bool :=
  let names := (chainTensors d sts).filter ok
  let idx := List.range sts.length
  let at_ := fun i => sts.getD i ⟨0, 0, 0, 0, 0, 0⟩
  let r := rstatAt sts
  let scans := sts.filter fun t => t.op = opSCAN
  let stats := sts.filter fun t => t.op = opRSTAT
  let ints := [0x10, 0x11, 0x12]
  decide ((sts.filter Stage.isSF).length ≤ 2)
  && stats.length ≤ 1 && scans.length ≤ 1 && !(stats.length = 1 && scans.length = 1)
  && (idx.all fun i => (at_ i).selects.all fun c =>
      (c < 0x10 || c - 0x10 < i)
      && (!(c = 0x0E || c = 0x0F) || (match r with | some k => k < i | none => false))
      && (match r with
          | some k => !(k < i) || (c ≠ 0 && !(0x10 ≤ c && c - 0x10 < k))
          | none => true)
      && !(c = 2 && chAuxOut d))
  && (!chPack d || (!chSrcAcc d && (sts.all fun t => t.op ≤ 0x0C) && names.all fun k => (ts k).fmt = 0x02))
  && (!chIntm d || ((sts.all fun t =>
        (t.op ≠ 0x05 && !t.isSF && (t.op ≠ opRSTAT || t.fn ≤ 1) && (t.op ≠ opSCAN || t.fn ≠ 0)))
      && names.all fun k =>
        (k = 3 && !usesPrev sts) || (k = 2 && chAuxOut d) || ints.contains (ts k).fmt))
  && (sts.all fun t => ((t.selects.drop 1).all fun c => !(isCb4 d ts c && ok c))
      && (t.op = opCBLK || !(isCb4 d ts t.sa && ok t.sa)))
  && (if scans.isEmpty then names.all fun k => (ts k).layout = 0 || (ts k).lineAxis = 0
      else !chSrcAcc d && names.all fun k => (ts k).blocked && (ts k).lineAxis = 1)
  && (!chAuxSel d || stats.length = 1)

/-! ### A chain at work -/

/-- Everything a chain in flight computes with. -/
structure Chain where
  f      : Nat
  core   : Nat
  d      : List W64
  sts    : List Stage
  ks     : List W32
  in0    : TDesc
  in1    : TDesc
  in2    : TDesc
  out    : TDesc
  banks  : Nat
  srStep : W64
  srMb   : W64
  seed   : W64
  lfold  : Nat
  deriving DecidableEq, Repr

def State.jobSeed (s : State) : W64 :=
  match s.job with
  | some j => wd j.hdr 2
  | none => 0

def State.chain (s : State) (f core : Nat) (r : ChainRun) : Chain :=
  let list := r.d.subs.getD 0 []
  { f := f, core := core, d := r.d.words, sts := stagesOf list (chNstg r.d.words),
    ks := (List.range 6).map fun i => BitVec.ofNat 32 (fld (wd list (5 + i / 2)) (32 * (i % 2)) 32),
    in0 := TDesc.ofWords (r.d.subs.getD 1 []), in1 := TDesc.ofWords (r.d.subs.getD 2 []),
    in2 := TDesc.ofWords (r.d.subs.getD 3 []), out := TDesc.ofWords (r.d.subs.getD 4 []),
    banks := r.banks, srStep := r.d.srStep, srMb := r.d.srMb, seed := s.jobSeed,
    lfold := (s.logicalOf f).getD 0 }

def Chain.intm (c : Chain) : Bool := chIntm c.d
def Chain.tensor (c : Chain) (k : Nat) : TDesc :=
  match k with
  | 0 => c.in0
  | 1 => c.in1
  | 2 => c.in2
  | _ => c.out
def Chain.selected (c : Chain) (k : Nat) : Bool := (c.sts.flatMap Stage.selects).contains k
def Chain.isCb4 (c : Chain) (sel : Nat) : Bool := Machine.isCb4 c.d c.tensor sel

/-- The tensors a chain reads. -/
def Chain.readTensors (c : Chain) : List Nat :=
  [0, 1, 2].filter fun k => c.selected k && !(k = 0 && chSrcAcc c.d)

/-- The rounding of a written element (R65, R157, R158). -/
def Chain.rnd (c : Chain) (lane iter : Nat) : Rnd :=
  match chRnd c.d with
  | 0 => .rne
  | 1 => .rtz
  | _ => .sr (srDraw ⟨c.seed, fld c.srStep 0 48, fld c.srMb 16 6, fld c.srMb 0 13, c.lfold, c.core, hdrTag c.d⟩
      lane iter)

/-- One element as the chain reads it (R149), with the flags the read sets. -/
def State.chainElem (s : State) (intm : Bool) (t : TDesc) (x y : Int) (z2 z3 : Nat) : W32 × W64 :=
  let p := s.winPat t x y z2 z3
  let sc := s.winScale t x y z2 z3
  let v := t.format.value sc p
  if t.format = .cb4 then (BitVec.ofNat 32 p, 0)
  else if intm then
    (match v with
      | .fin n m e => BitVec.ofInt 32 ((if n then -1 else 1) * (m <<< e.toNat : Nat))
      | _ => 0, 0)
  else (toF32 v,
    (if t.format.readsSNaN p then fpxINVALID else 0) ||| (if t.format.isMX && sc = 0xFF then fpxMXNONFINITE else 0))

/-- One accumulator element (R148, R149). -/
def State.chainAcc (s : State) (c : Chain) (i j : Nat) : W32 × W64 :=
  let a := s.accAt c.f (accKey (chArr c.d) (chHalf c.d) (chRow0 c.d + j) i)
  if c.intm then (a, 0)
  else if chAccInt c.d then (toF32 (Val.ofInt a.toInt), 0)
  else (toF32 (f32 a), if f32SNaN a then fpxINVALID else 0)

/-- The inputs of one element. -/
structure Ins where
  in0 : W32 := 0
  in1 : W32 := 0
  in2 : W32 := 0
  deriving DecidableEq, Repr

def State.chainIns (s : State) (c : Chain) (i j z2 z3 : Nat) : Ins × W64 :=
  let get := fun (k : Nat) =>
    if !c.selected k then ((0 : W32), (0 : W64))
    else if k = 0 && chSrcAcc c.d then s.chainAcc c i j
    else s.chainElem c.intm (c.tensor k) i j z2 z3
  let a := get 0
  let b := get 1
  let d := get 2
  (⟨a.1, b.1, d.1⟩, a.2 ||| b.2 ||| d.2)

def fltNegMax : W32 := 0xFF7FFFFF#32
def intMin : W32 := 0x80000000#32

/-- An index as the chain sees it (R152). -/
def Chain.index (c : Chain) (v : Int) : W32 := if c.intm then BitVec.ofInt 32 v else toF32 (Val.ofInt v)
def Chain.one (c : Chain) : W32 := if c.intm then 1 else f32One
def Chain.negMax (c : Chain) : W32 := if c.intm then intMin else fltNegMax

/-- An operand (R152). -/
def Chain.operand (c : Chain) (x : Ins) (i j : Nat) (stat : W32 × W32) (res : List W32) (sel : Nat) : W32 :=
  match sel with
  | 0 => x.in0
  | 1 => x.in1
  | 2 => x.in2
  | 3 => 0
  | 4 => c.one
  | 5 => c.negMax
  | 6 => c.index (chX0 c.d + i)
  | 7 => c.index (chY0 c.d + j)
  | 0x0E => stat.1
  | 0x0F => stat.2
  | n => if n < 0x10 then c.ks.getD (n - 8) 0 else res.getD (n - 0x10) 0

/-! ### Stage operations (R153) -/

/-- The relations of CMP. -/
def relation (md : Nat) (o : Option Ordering) : Bool :=
  match md, o with
  | 0, some .eq => true
  | 1, o => o ≠ some .eq
  | 2, some .lt => true
  | 3, some .lt => true
  | 3, some .eq => true
  | 4, some .gt => true
  | 5, some .gt => true
  | 5, some .eq => true
  | _, _ => false

def ordInt (a b : Int) : Ordering := if a < b then .lt else if a = b then .eq else .gt

/-- A codebook index, and whether it was clamped (R169). -/
def cbIndex (v : Int) : Nat × Nat := if v < 0 then (0, 1) else if 255 < v then (255, 1) else (v.toNat, 0)

/-- The entry of a codebook table (R169, R170, R183). -/
def State.cbEntry (s : State) (c : Chain) (table entry : Nat) : W32 :=
  let key := ((if bit (BitVec.ofNat 8 c.banks) table then 1 else 0) * 8 + table) * 256 + entry
  match SMap.get none (s.core c.f c.core).cbData key with
  | some w => w
  | none => Config.undefCb c.f (s.fold c.f).resets c.core key

/-- The index a CBLK stage forms. -/
def Chain.cblkIndex (c : Chain) (t : Stage) (a : W32) : Nat × Nat :=
  if c.isCb4 t.sa then cbIndex (16 * t.fn + (a.toNat % 16 : Nat))
  else if c.intm then cbIndex a.toInt
  else match f32 a with
    | .nan => (0, 1)
    | .inf n => if n then (0, 1) else (255, 1)
    | .fin n m e => let k : Int := roundInt .rtz m e; cbIndex (if n then -k else k)

/-- An FP32 operation: the result and INVALID. -/
def stageFp (t : Stage) (a b d : W32) : W32 × W64 :=
  let ab := [a, b]
  let abd := [a, b, d]
  let un := fun (r : W32) => (r, opInvalid [a] r)
  let bi := fun (r : W32) => (r, opInvalid ab r)
  let tri := fun (r : W32) => (r, opInvalid abd r)
  match t.op with
  | 0x02 => bi (fAdd a b)
  | 0x03 => bi (fSub a b)
  | 0x04 => bi (fMul a b)
  | 0x05 => tri (fFma a b d)
  | 0x06 => bi (fMax a b)
  | 0x07 => bi (fMin a b)
  | 0x08 => un (fAbs a)
  | 0x09 => un (fNeg a)
  | 0x0A => tri (fMin (fMax a b) d)
  | 0x0B => (if (f32 a).isZero then d else b, opInvalid abd 0)
  | 0x0C => (if relation t.md ((f32 a).cmp (f32 b)) then f32One else 0, opInvalid ab 0)
  | 0x10 => bi (fDiv a b)
  | 0x11 => un (sfn t.fn a)
  | 0x20 => (toF32 (f32 a), opInvalid ab 0)
  | _ => un (toF32 (f32 a))

/-- An INT32 operation. -/
def stageInt (t : Stage) (a b d : W32) : W32 :=
  match t.op with
  | 0x02 => a + b
  | 0x03 => a - b
  | 0x04 => a * b
  | 0x06 => if a.slt b then b else a
  | 0x07 => if a.slt b then a else b
  | 0x08 => if a.slt 0 then 0 - a else a
  | 0x09 => 0 - a
  | 0x0A => let m := if a.slt b then b else a; if m.slt d then m else d
  | 0x0B => if a = 0 then d else b
  | 0x0C => if relation t.md (some (ordInt a.toInt b.toInt)) then 1 else 0
  | _ => a

/-- What one element's stages have given so far: the results, the flags, and the codebook clamps. -/
structure Run where
  res : List W32 := []
  fl  : W64 := 0
  cb  : Nat := 0
  deriving DecidableEq, Repr

/-- One stage of one element. A chain with PACK = 1 keeps its stage results in FP32; the rounding to BF16 that R68 gives
"the writing stage" is made where the result is written to OUT or IN2 (log entry 88, DESIGN CHOICE). -/
def State.stage (s : State) (c : Chain) (x : Ins) (i j : Nat) (stat : W32 × W32) (r : Run) (t : Stage) : Run :=
  let a := c.operand x i j stat r.res t.sa
  let b := c.operand x i j stat r.res t.sb
  let d := c.operand x i j stat r.res t.sc
  if t.op = opCBLK then
    let (k, n) := c.cblkIndex t a
    let v := s.cbEntry c t.md k
    let fl := if c.intm then 0 else opInvalid (if c.isCb4 t.sa then [v] else [a, v]) 0
    { r with res := r.res ++ [v], fl := r.fl ||| fl, cb := r.cb + n }
  else if c.intm then { r with res := r.res ++ [stageInt t a b d] }
  else
    let (v, fl) := stageFp t a b d
    { r with res := r.res ++ [v], fl := r.fl ||| fl }

def State.stages (s : State) (c : Chain) (x : Ins) (i j : Nat) (stat : W32 × W32) (r : Run) (ts : List Stage) : Run :=
  ts.foldl (fun r t => s.stage c x i j stat r t) r

/-! ### Row statistics (R198–R201) -/

/-- The partial of a lane: the count, the two values, the index, and the flags its operations set. -/
structure Part where
  n   : Nat
  a   : W32
  b   : W32 := 0
  idx : Int := 0
  fl  : W64 := 0
  deriving DecidableEq, Repr

/-- a is greater than b, −0 being less than +0 (R51). -/
def fGt (a b : W32) : Bool :=
  match (f32 a).cmp (f32 b) with
  | some .gt => true
  | some .eq => (f32 b).sign && !(f32 a).sign
  | _ => false
def fSame (a b : W32) : Bool :=
  ((f32 a).isNaN && (f32 b).isNaN) || ((f32 a).cmp (f32 b) = some .eq && (f32 a).sign = (f32 b).sign)

/-- The lane update of R201. -/
def statUpdate (fn : Nat) (intm : Bool) (p : Option Part) (i : Nat) (a : W32) : Part :=
  match fn with
  | 0 => match p with
    | none => { n := 1, a := a }
    | some p => if intm then { p with n := p.n + 1, a := p.a + a }
      else let r := fAdd p.a a; { p with n := p.n + 1, a := r, fl := p.fl ||| opInvalid [p.a, a] r }
  | 1 => match p with
    | none => { n := 1, a := a, idx := i }
    | some p =>
      if intm then (if p.a.slt a then { p with n := p.n + 1, a := a, idx := i } else { p with n := p.n + 1 })
      else
        let up := fGt a p.a || ((f32 a).isNaN && !(f32 p.a).isNaN)
        { p with n := p.n + 1, a := fMax p.a a, idx := if up then i else p.idx }
  | 2 => match p with
    | none => let r := fMul a a; { n := 1, a := r, fl := opInvalid [a] r }
    | some p => let r := fFma a a p.a; { p with n := p.n + 1, a := r, fl := p.fl ||| opInvalid [a, p.a] r }
  | 3 =>
    let p := p.getD { n := 0, a := 0 }
    let d := fSub a p.a
    let mu := fFma d (ratF32 1 (p.n + 1)) p.a
    let e := fSub a mu
    let m2 := fFma d e p.b
    { p with n := p.n + 1, a := mu, b := m2,
             fl := p.fl ||| opInvalid [a, p.a] d ||| opInvalid [d, p.a] mu ||| opInvalid [a, mu] e
               ||| opInvalid [d, e, p.b] m2 }
  | _ =>
    let p := p.getD { n := 0, a := fltNegMax }
    if (f32 a).cmp (f32 p.a) = some .gt then
      let d := fSub p.a a
      let x := sfn 1 d
      let r := fFma p.b x f32One
      { p with n := p.n + 1, a := a, b := r,
               fl := p.fl ||| opInvalid [p.a, a] d ||| opInvalid [d] x ||| opInvalid [p.b, x] r }
    else
      let d := fSub a p.a
      let x := sfn 1 d
      let r := fAdd p.b x
      { p with n := p.n + 1, b := r,
               fl := p.fl ||| opInvalid [a, p.a] d ||| opInvalid [d] x ||| opInvalid [p.b, x] r }

/-- The merge of R201. -/
def statMerge (fn : Nat) (intm : Bool) (p q : Part) : Part :=
  let n := p.n + q.n
  let fl := p.fl ||| q.fl
  match fn with
  | 0 | 2 =>
    if intm then { n := n, a := p.a + q.a, fl := fl }
    else let r := fAdd p.a q.a; { n := n, a := r, fl := fl ||| opInvalid [p.a, q.a] r }
  | 1 =>
    let second :=
      if intm then p.a.slt q.a || (p.a = q.a && decide (q.idx < p.idx))
      else fGt q.a p.a || ((f32 q.a).isNaN && !(f32 p.a).isNaN) || (fSame p.a q.a && decide (q.idx < p.idx))
    { n := n, a := if intm then (if p.a.slt q.a then q.a else p.a) else fMax p.a q.a,
      idx := if second then q.idx else p.idx, fl := fl }
  | 3 =>
    let d := fSub q.a p.a
    let mu := fFma d (ratF32 q.n n) p.a
    let dd := fMul d d
    let sum := fAdd p.b q.b
    let m2 := fFma dd (ratF32 (p.n * q.n) n) sum
    { n := n, a := mu, b := m2,
      fl := fl ||| opInvalid [q.a, p.a] d ||| opInvalid [d, p.a] mu ||| opInvalid [d] dd
        ||| opInvalid [p.b, q.b] sum ||| opInvalid [dd, sum] m2 }
  | _ =>
    let m := fMax p.a q.a
    let d1 := fSub p.a m
    let d2 := fSub q.a m
    let e1 := sfn 1 d1
    let e2 := sfn 1 d2
    let t1 := fMul p.b e1
    let t2 := fMul q.b e2
    let r := fAdd t1 t2
    { n := n, a := m, b := r,
      fl := fl ||| opInvalid [p.a, m] d1 ||| opInvalid [q.a, m] d2 ||| opInvalid [p.b, e1] t1
        ||| opInvalid [q.b, e2] t2 ||| opInvalid [t1, t2] r }

/-- One level of the tree: neighbours merge, an empty lane passes the other on (R200). -/
def mergeLevel (fn : Nat) (intm : Bool) : List (Option Part) → List (Option Part)
  | some p :: some q :: rest => some (statMerge fn intm p q) :: mergeLevel fn intm rest
  | some p :: none :: rest => some p :: mergeLevel fn intm rest
  | none :: q :: rest => q :: mergeLevel fn intm rest
  | l => l

/-- A finished statistic. -/
structure Stat where
  n    : Nat
  s0   : W32
  s1   : W32
  rec0 : W32
  rec1 : W32
  fl   : W64 := 0
  deriving DecidableEq, Repr

/-- The statistic of a row's unmasked elements (index, value), in ascending order (R200, R201). -/
def rowStat (c : Chain) (fn : Nat) (els : List (Nat × W32)) : Stat :=
  let intm := c.intm
  let lanes := (List.range 128).map fun l =>
    (els.filter fun e => e.1 % 128 = l).foldl (fun p e => some (statUpdate fn intm p e.1 e.2)) none
  let top := ((List.range 7).foldl (fun ps _ => mergeLevel fn intm ps) lanes).getD 0 none
  let cnt := fun (n : Nat) => if intm then BitVec.ofNat 32 n else toF32 (Val.ofInt n)
  match fn, top with
  | 1, none => ⟨0, c.negMax, c.index (-1), c.negMax, c.index (-1), 0⟩
  | 1, some p => let i := c.index (chX0 c.d + p.idx); ⟨p.n, p.a, i, p.a, i, p.fl⟩
  | 4, none => ⟨0, fltNegMax, 0, f32Inf true, 0, 0⟩
  | 4, some p =>
    let lg := sfn 3 p.b
    let r := fAdd p.a lg
    ⟨p.n, p.a, sfn 4 p.b, r, cnt p.n, p.fl ||| opInvalid [p.b] lg ||| opInvalid [p.a, lg] r⟩
  | _, none => ⟨0, 0, 0, 0, 0, 0⟩
  | 3, some p =>
    let v := fDivCount p.b p.n
    ⟨p.n, p.a, v, p.a, v, p.fl ||| opInvalid [p.b] v⟩
  | _, some p => ⟨p.n, p.a, cnt p.n, p.a, cnt p.n, p.fl⟩

/-! ### The scan stage (R174–R176) -/

/-- The IDENT value (R175). -/
def scanIdent (fn : Nat) (intm : Bool) : W32 :=
  if fn = 2 then (if intm then intMin else f32Inf true) else 0

/-- One lane of a scan: F, A, B. -/
structure Lane where
  fReset : Bool
  a      : W32
  b      : W32
  deriving DecidableEq, Repr

def maxInt (a b : W32) : W32 := if a.slt b then b else a

/-- The result of combining an earlier value h with a lane's: (value, flags). -/
def scanJoin (fn : Nat) (intm : Bool) (a h b : W32) : W32 × W64 :=
  match fn with
  | 0 => let r := fFma a h b; (r, opInvalid [a, h, b] r)
  | 1 => if intm then (h + b, 0) else let r := fAdd h b; (r, opInvalid [h, b] r)
  | _ => if intm then (maxInt h b, 0) else let r := fMax h b; (r, opInvalid [h, b] r)

/-- One prefix level at distance d. -/
def scanLevel (fn : Nat) (intm : Bool) (ls : List Lane) (d : Nat) : List Lane × W64 :=
  let out := (List.range ls.length).map fun t =>
    let x := ls.getD t ⟨true, 0, 0⟩
    if d ≤ t && !x.fReset then
      let y := ls.getD (t - d) ⟨true, 0, 0⟩
      let (b, fl) := scanJoin fn intm x.a y.b x.b
      let a := if fn = 0 then fMul x.a y.a else x.a
      ((⟨y.fReset, a, b⟩ : Lane), fl ||| (if fn = 0 then opInvalid [x.a, y.a] a else 0))
    else (x, 0)
  (out.map (·.1), out.foldl (fun f x => f ||| x.2) 0)

/-- A vector of a scan: (a, b, reset operand) of each active lane and the carry; the results, the carry out and the
flags. -/
def scanVector (fn md : Nat) (intm : Bool) (xs : List (W32 × W32 × W32)) (carry : W32) : List W32 × W32 × W64 :=
  let one := md % 4 = 1
  let nz := fun (r : W32) => if intm then r ≠ 0 else !(f32 r).isZero
  let init : List (Lane × W64) := xs.map fun (a, b, r) =>
    let read := if intm then 0 else opInvalid [a, b, r] 0
    if fn = 0 then
      if nz r then
        let v := if one then fAdd a b else b
        ((⟨true, 0, v⟩ : Lane), read ||| if one then opInvalid [a, b] v else 0)
      else (⟨false, a, b⟩, read)
    else (⟨nz r, 0, a⟩, read)
  let fl0 := init.foldl (fun (f : W64) x => f ||| x.2) 0
  let (ls, fl) := (List.range 7).foldl (fun (p : List Lane × W64) k =>
    let (l, f) := scanLevel fn intm p.1 (2 ^ k)
    (l, p.2 ||| f)) (init.map (·.1), fl0)
  let hs : List (W32 × W64) := ls.map fun x => if x.fReset then (x.b, 0) else scanJoin fn intm x.a carry x.b
  (hs.map (·.1), (hs.getLast?.map (·.1)).getD carry, hs.foldl (fun f x => f ||| x.2) fl)

/-! ### Writing results (R63, R99–R102, R149) -/

/-- A stage result as an exact value. -/
def Chain.val (c : Chain) (x : W32) : Val := if c.intm then Val.ofInt x.toInt else f32 x

/-- The pattern of a result in a format without a block scale; a pair holds the value as hi + lo (R73, R76). -/
def outPattern (t : TDesc) (r : Rnd) (sat : Bool) (v : Val) : Nat × W64 :=
  if t.format = .pair then
    let hi := toF32 v
    let lo := if (f32 hi).isFinite then toF32 (v.add (f32 hi).neg) else 0
    (hi.toNat + lo.toNat * 2 ^ 32, 0)
  else t.format.narrow r sat v

/-- Write results along the line axis at coordinates (line-axis coordinate, value, rounding); `alongY` says that the
axis is dimension 1, `o` is the other coordinate. Answers the flags. -/
def State.writeRun (s : State) (c : Chain) (t : TDesc) (alongY : Bool) (o : Int) (z2 z3 : Nat)
    (vals : List (Int × Val × Rnd)) : State × W64 :=
  let who := coreAgent c.f c.core
  let ax := if alongY then 1 else 0
  if !(t.inside (1 - ax) o && t.inside 2 z2 && t.inside 3 z3) then (s, 0)
  else
    let vals := vals.filter fun v => t.inside ax v.1
    let xy := fun (q : Nat) => if alongY then (o.toNat, q) else (q, o.toNat)
    if t.format.isMX then
      let lines := (vals.map fun v => v.1.toNat / 32).eraseDups
      lines.foldl (fun (p : State × W64) ln =>
        let g := vals.filter fun v => v.1.toNat / 32 = ln
        let (sc, pats, fl) := mxBlock t.format (g.map (·.2))
        let (x, y) := xy (32 * ln)
        (p.1.writeLine who t (t.lineAddr x y z2 z3) sc pats, p.2 ||| fl)) (s, 0)
    else
      vals.foldl (fun (p : State × W64) v =>
        let (pat, fl) := outPattern t v.2.2 (chSat c.d) v.2.1
        let (x, y) := xy v.1.toNat
        (p.1.writeElem who t x y z2 z3 pat, p.2 ||| fl)) (s, 0)

/-- Set flags and counts of the core's vector engine. -/
def State.noteVec (s : State) (c : Chain) (fl : W64) (cb : Nat) : State :=
  if fl = 0 && cb = 0 then s
  else s.coreRegs c.f c.core fun r => { r with fpx := r.fpx ||| fl, vecCnt := bumpFld r.vecCnt 32 16 cb }

/-- Undefined values in place of results that an uncorrectable error reached (R165). -/
def State.undefVals (s : State) (c : Chain) (base : Nat) (vs : List (Int × Val × Rnd)) : List (Int × Val × Rnd) :=
  (List.range vs.length).map fun k =>
    let v := vs.getD k (0, .nan, .rne)
    (v.1, c.val (Config.undefAcc (2000 + c.f) s.free (base + k)), v.2.2)

/-- The first uncorrectable unit under the inputs of a window of the iteration space. -/
def State.chainUE (s : State) (c : Chain) (i0 j0 nx ny z2 z3 : Nat) : Option Nat :=
  if s.ue.isEmpty then none
  else c.readTensors.findSome? fun k =>
    let t := c.tensor k
    s.ueRuns (t.runs false (planeWin i0 j0 nx ny (t.clamp 2 z2) (t.clamp 3 z3)))

/-- A chain's reads of a plane correct what can be corrected (R267). -/
def State.chainCorrect (s : State) (c : Chain) (z : Nat × Nat) : State :=
  if s.ue.isEmpty then s
  else c.readTensors.foldl (fun s k =>
    let t := c.tensor k
    s.correctRuns (t.runs false (planeWin 0 0 (chNX c.d) (chNY c.d) (t.clamp 2 z.1) (t.clamp 3 z.2)))) s

/-! ### Rows (chains without a SCAN stage) -/

/-- Lane and iteration of column i of a row whose first vector is v0 (R157, R158). -/
def laneIter (pack : Bool) (v0 i : Nat) : Nat × Nat :=
  if pack then (i % 128, 2 * (v0 + i / 256) + i % 256 / 128) else (i % 128, v0 + i / 128)

/-- The results of a row. -/
structure RowOut where
  outs : List (Int × Val × Rnd)
  auxs : List (Int × Val × Rnd) := []
  recs : List (Int × Val × Rnd) := []
  fl   : W64 := 0
  cb   : Nat := 0
  empty : Bool := false
  deriving DecidableEq, Repr

/-- What row j of a plane gives. -/
def State.chainRow (s : State) (c : Chain) (z2 z3 j v0 : Nat) : RowOut :=
  let d := c.d
  let nx := chNX d
  let x0 := chX0 d
  let last := c.sts.length - 1
  let rnd := fun (i : Nat) => let li := laneIter (chPack d) v0 i; c.rnd li.1 li.2
  match rstatAt c.sts with
  | none =>
    let els := (List.range nx).map fun i =>
      let (x, fl) := s.chainIns c i j z2 z3
      (i, s.stages c x i j (0, 0) { fl := fl } c.sts)
    { outs := els.map fun (i, r) => (x0 + i, c.val (r.res.getD last 0), rnd i),
      auxs := if chAuxOut d then els.map fun (i, r) => (x0 + i, c.val (r.res.getD (chAuxStg d) 0), rnd i) else [],
      fl := els.foldl (fun f e => f ||| e.2.fl) 0, cb := els.foldl (fun n e => n + e.2.cb) 0 }
  | some k =>
    let t := c.sts.getD k ⟨0, 0, 0, 0, 0, 0⟩
    let els := (List.range nx).map fun i =>
      let (x, fl) := s.chainIns c i j z2 z3
      let r := s.stages c x i j (0, 0) { fl := fl } (c.sts.take (k + 1))
      let m := c.operand x i j (0, 0) r.res t.sb
      (i, x, r, if c.intm then decide (m ≠ 0) else !(f32 m).isZero)
    let st := rowStat c t.fn ((els.filter fun e => e.2.2.2).map fun e => (e.1, e.2.2.1.res.getD k 0))
    let lse := t.fn = 4
    let outs := els.map fun (i, x, r, keep) =>
      let buf := if !keep && (t.fn = 1 || lse) then c.negMax else r.res.getD k 0
      let z := lse && (!keep || st.n = 0)
      let q := s.stages c x i j (st.s0, st.s1) { res := r.res.take k ++ [buf] } (c.sts.drop (k + 1))
      (i, r, q, z)
    -- R203: an element written as +0 sets no flag, neither in sweep 1 nor in sweep 2
    { outs := outs.map fun (i, _, q, z) => (x0 + i, if z then .fin false 0 0 else c.val (q.res.getD last 0), rnd i),
      auxs := if chAuxOut d && !chAuxSel d then outs.map fun (i, _, q, z) =>
          (x0 + i, if z && k ≤ chAuxStg d then .fin false 0 0 else c.val (q.res.getD (chAuxStg d) 0), rnd i)
        else [],
      recs := if chAuxSel d then [(x0, c.val st.rec0, rnd 0), (x0 + 1, c.val st.rec1, rnd 1)] else [],
      fl := outs.foldl (fun f (_, r, q, z) => f ||| (if z then 0 else r.fl ||| q.fl)) st.fl,
      cb := outs.foldl (fun n (_, r, q, _) => n + r.cb + q.cb) 0,
      empty := st.n = 0 }

/-- The vectors of a row an uncorrectable error reached: all of them when a statistic spreads it. -/
def State.rowUE (s : State) (c : Chain) (z2 z3 j : Nat) : List Nat × Option Nat :=
  if s.ue.isEmpty then ([], none)
  else
    let w := if chPack c.d then 256 else 128
    let n := ceilDiv (chNX c.d) w
    let hits := (List.range n).filterMap fun b =>
      (s.chainUE c (w * b) j (min w (chNX c.d - w * b)) 1 z2 z3).map fun u => (b, u)
    if hits.isEmpty then ([], none)
    else (if (rstatAt c.sts).isSome then List.range n else hits.map (·.1), hits.head?.map (·.2))

/-- One row: computed, then written. Answers the state and an uncorrectable unit it met. -/
def State.doRow (s : State) (c : Chain) (z2 z3 j v0 : Nat) : State × Option Nat :=
  let r := s.chainRow c z2 z3 j v0
  let (bad, ue) := s.rowUE c z2 z3 j
  let w := if chPack c.d then 256 else 128
  let y := chY0 c.d + j
  let mark := fun (base : Nat) (vs : List (Int × Val × Rnd)) =>
    if bad.isEmpty then vs
    else
      let u := s.undefVals c base vs
      (List.range vs.length).map fun i => if bad.contains (i / w) then u.getD i (0, .nan, .rne) else vs.getD i (0, .nan, .rne)
  let (s, f1) := s.writeRun c c.out false y z2 z3 (mark 0 r.outs)
  let (s, f2) := s.writeRun c c.in2 false y z2 z3 (mark (chNX c.d) r.auxs)
  let (s, f3) := s.writeRun c c.in2 false y z2 z3 (mark (2 * chNX c.d) r.recs)
  let s := s.noteVec c (r.fl ||| f1 ||| f2 ||| f3) r.cb
  let s := if r.empty then s.coreRegs c.f c.core fun g =>
      { g with rowSts := bumpFld (g.rowSts ||| 1) 16 32 1 } else s
  let s := if ue.isSome then { s with free := s.free + 1 } else s
  (s, ue)

/-! ### Columns (chains with a SCAN stage) -/

/-- What the scan of a chain has reached: the state, an error met, and by column of the band the carry and whether an
error reached it. -/
structure ScanAt where
  s     : State
  ue    : Option Nat
  carry : List (W32 × Bool)
  deriving DecidableEq, Repr

/-- One vector: rows 128·b … of column i, its iteration number v, the carry of its column. -/
def State.doVector (s : State) (c : Chain) (k z2 z3 i b v : Nat) (carry : W32 × Bool) : State × Option Nat × (W32 × Bool) :=
  let d := c.d
  let t := c.sts.getD k ⟨0, 0, 0, 0, 0, 0⟩
  let n := min 128 (chNY d - 128 * b)
  let els := (List.range n).map fun l =>
    let j := 128 * b + l
    let (x, fl) := s.chainIns c i j z2 z3
    (l, x, s.stages c x i j (0, 0) { fl := fl } (c.sts.take k))
  let ops := els.map fun (l, x, r) =>
    let g := c.operand x i (128 * b + l) (0, 0) r.res
    (g t.sa, if t.fn = 0 then g t.sb else 0, g t.sc)
  let (hs, out, fl) := scanVector t.fn t.md c.intm ops carry.1
  let fin := els.map fun (l, x, r) =>
    (l, s.stages c x i (128 * b + l) (0, 0) { r with res := r.res ++ [hs.getD l 0] } (c.sts.drop (k + 1)))
  let ue := s.chainUE c i (128 * b) 1 n z2 z3
  let bad := carry.2 || ue.isSome
  let x := chX0 d + i
  let y0 := chY0 d + 128 * b
  let col := fun (q : Nat) => fin.map fun (l, r) => (y0 + l, c.val (r.res.getD q 0), c.rnd l v)
  let mark := fun (base : Nat) (vs : List (Int × Val × Rnd)) => if bad then s.undefVals c base vs else vs
  let (s, f1) := s.writeRun c c.out true x z2 z3 (mark 0 (col (c.sts.length - 1)))
  let (s, f2) := if chAuxOut d then s.writeRun c c.in2 true x z2 z3 (mark 128 (col (chAuxStg d))) else (s, 0)
  let s := s.noteVec c (fin.foldl (fun f e => f ||| e.2.fl) (fl ||| f1 ||| f2)) (fin.foldl (fun n e => n + e.2.cb) 0)
  let s := if bad then { s with free := s.free + 1 } else s
  (s, ue, (out, bad))

/-- What PREV reads for n columns from column i: the row of OUT before the window. -/
def Chain.prevRuns (c : Chain) (z2 z3 i n : Nat) : List (Nat × Nat) :=
  c.out.runs false (planeWin (chX0 c.d + i) (chY0 c.d - 1) n 1 (c.out.clamp 2 z2) (c.out.clamp 3 z3))

/-- The initial state of column i (R175), and an uncorrectable unit under the element that PREV reads (R165). -/
def State.scanStart (s : State) (c : Chain) (t : Stage) (z2 z3 i : Nat) : (W32 × Option Nat) × W64 :=
  if t.md % 4 = 2 then
    let (v, fl) := s.chainElem c.intm c.out (chX0 c.d + i) (chY0 c.d - 1) z2 z3
    ((v, s.ueRuns (c.prevRuns z2 z3 i 1)), fl)
  else (((if t.md % 4 = 1 then f32One else scanIdent t.fn c.intm), none), 0)

/-- One band of up to 128 columns. -/
def State.doBand (s : State) (c : Chain) (k z2 z3 bx v0 : Nat) : State × Option Nat :=
  let t := c.sts.getD k ⟨0, 0, 0, 0, 0, 0⟩
  let w := min 128 (chNX c.d - 128 * bx)
  let nb := ceilDiv (chNY c.d) 128
  let starts := (List.range w).map fun q => s.scanStart c t z2 z3 (128 * bx + q)
  let s := s.noteVec c (starts.foldl (fun f x => f ||| x.2) 0) 0
  let s := if t.md % 4 = 2 then s.correctRuns (c.prevRuns z2 z3 (128 * bx) w) else s
  let vecs := (List.range nb).flatMap fun b => (List.range w).map fun q => (b, q)
  let r := vecs.foldl (fun (p : ScanAt) (b, q) =>
    let (s, ue, cr) := p.s.doVector c k z2 z3 (128 * bx + q) b (v0 + b * w + q) (p.carry.getD q (0, false))
    ⟨s, p.ue.orElse fun _ => ue, setAt p.carry q cr⟩)
      ⟨s, starts.findSome? (·.1.2), starts.map fun x => (x.1.1, x.1.2.isSome)⟩
  (r.s, r.ue)

/-! ### The whole chain -/

/-- The planes a chain visits, in order (R157). -/
def Chain.planes (c : Chain) : List (Nat × Nat) :=
  (List.range (c.out.dim 3)).flatMap fun z3 => (List.range (c.out.dim 2)).map fun z2 => (z2, z3)

/-- Vectors of one plane. -/
def Chain.planeVectors (c : Chain) : Nat :=
  if (scanAt c.sts).isSome then chNX c.d * ceilDiv (chNY c.d) 128
  else chNY c.d * ceilDiv (chNX c.d) (if chPack c.d then 256 else 128)

/-- Elements read with a clamped index and writes discarded on one plane (R98, R99, R103). -/
def Chain.planeClamps (c : Chain) (z2 z3 : Nat) : Nat × Nat :=
  let nx := chNX c.d
  let ny := chNY c.d
  let rd := c.readTensors.foldl (fun n k =>
    let t := c.tensor k
    n + if t.inside 2 z2 && t.inside 3 z3 then t.outsideCount 0 0 nx ny else nx * ny) 0
  let prev := if usesPrev c.sts then c.out.outsideCount (chX0 c.d) (chY0 c.d - 1) nx 1 else 0
  let aux := if !chAuxOut c.d then 0
    else
      let w := if chAuxSel c.d then 2 else nx
      if c.in2.inside 2 z2 && c.in2.inside 3 z3 then c.in2.outsideCount (chX0 c.d) (chY0 c.d) w ny else w * ny
  (rd + prev, c.out.outsideCount (chX0 c.d) (chY0 c.d) nx ny + aux)

def State.doPlane (s : State) (c : Chain) (n z2 z3 : Nat) : State × Option Nat :=
  let v0 := n * c.planeVectors
  let nx := chNX c.d
  let (rd, wr) := c.planeClamps z2 z3
  let s := s.countClamp c.f rd wr
  match scanAt c.sts with
  | some k =>
    (List.range (ceilDiv nx 128)).foldl (fun (p : State × Option Nat) bx =>
      let (s, ue) := p.1.doBand c k z2 z3 bx (v0 + 128 * bx * ceilDiv (chNY c.d) 128)
      (s, p.2.orElse fun _ => ue)) (s, none)
  | none =>
    let per := ceilDiv nx (if chPack c.d then 256 else 128)
    let (s, ue) := (List.range (chNY c.d)).foldl (fun (p : State × Option Nat) j =>
      let (s, ue) := p.1.doRow c z2 z3 j (v0 + j * per)
      (s, p.2.orElse fun _ => ue)) (s, none)
    let s := if (rstatAt c.sts).isSome && 16384 < nx then
        s.coreRegs c.f c.core fun r => { r with vecCnt := bumpFld r.vecCnt 0 32 (chNY c.d) }
      else s
    (s, ue)

/-- Everything a chain reads, computes and writes. -/
def State.runChain (s : State) (c : Chain) : State × Option Nat :=
  let ps := c.planes
  (List.range ps.length).foldl (fun (p : State × Option Nat) n =>
    let (z2, z3) := ps.getD n (0, 0)
    let (s, ue) := p.1.doPlane c n z2 z3
    (s, p.2.orElse fun _ => ue)) (s, none)

/-! ### Start (R161, R170, R171, R223) -/

def State.gateVec (s : State) (f c : Nat) : State :=
  match (s.core f c).chainQ with
  | e :: _ =>
    match e.gate with
    | some g => s.await f g (.gateVec c)
    | none => s
  | [] => s

def State.chainReady (s : State) (f c : Nat) (e : Issued) : Bool :=
  let d := e.words
  let x := s.core f c
  let sts := stagesOf (e.subs.getD 0 []) (chNstg d)
  x.inflight.length < 2
  && (!chSrcAcc d || (let h := s.half f (chArr d) (chHalf d); h.st = .full || h.st = .reading))
  && (!usesPrev sts || x.inflight.isEmpty)
  && (match e.gate with
      | some g => s.gateReady f g (.gateVec c)
      | none => true)

/-- Every armed table switches banks (R171). -/
def Core.switchBanks (x : Core) : Core :=
  let armed := fld x.regs.cbCtl 28 8
  let gen := (List.range 8).foldl (fun w t =>
    if bit x.regs.cbCtl (28 + t) then setFld w (8 * t) 8 (fld w (8 * t) 8 + 1) else w) x.regs.cbGen
  { x with cbBanks := x.cbBanks ^^^ armed, regs := { x.regs with cbGen := gen, cbCtl := setFld x.regs.cbCtl 28 8 0 } }

def opChainStart (s : State) (f c : Nat) : State :=
  match (s.core f c).chainQ with
  | [] => s
  | e :: rest =>
    if !(s.fold f).clocked || !s.chainReady f c e then s
    else
      let d := e.words
      let s := match e.gate with
        | some g => s.consumeGate f g
        | none => s
      let s := if chSrcAcc d then
          let h := s.half f (chArr d) (chHalf d)
          s.setHalf f (chArr d) (chHalf d) { h with st := .reading, readers := h.readers + 1 }
        else s
      let s := s.updCore f c fun x =>
        let x := x.switchBanks
        { x with chainQ := rest, inflight := x.inflight ++ [⟨e, x.cbBanks⟩] }
      let ch := s.chain f c ⟨e, 0⟩
      (s.pmc f 0x20 (ch.planeVectors * ch.planes.length)).gateVec f c

/-! ### Codebook loads (R171–R173) -/

/-- Whether a chain has a CBLK stage that reads a table. -/
def ChainRun.readsTable (r : ChainRun) (table : Nat) : Bool :=
  (stagesOf (r.d.subs.getD 0 []) (chNstg r.d.words)).any fun t => t.op = opCBLK && t.md = table

/-- A waiting load begins to copy when no chain in flight reads the inactive bank of its table (R172). -/
def Core.loadMayCopy (x : Core) (table : Nat) : Bool :=
  x.inflight.all fun r => !r.readsTable table
    || bit (BitVec.ofNat 8 r.banks) table = bit (BitVec.ofNat 8 x.cbBanks) table

def Core.startCopy (x : Core) : Core :=
  match x.cbLoad with
  | some l => if x.loadMayCopy l.table then { x with cbLoad := some { l with copying := true } } else x
  | none => x

/-- A write of VEC_CB_CTL (R173, R181). A load into a table that is armed takes its arm away until the copy completes: the
one switch that follows counts its generation once. -/
def opCbCtl (s : State) (f c : Nat) (v : W64) : State :=
  s.updCore f c fun x =>
    let r := x.regs.cbCtl
    let r := if bit v 27 then setFld r 27 1 0 else r
    if bit v 25 && x.cbLoad.isSome then { x with regs := { x.regs with cbCtl := setFld r 27 1 1 } }
    else
      let r := setFld (setFld r 10 12 (fld v 10 12)) 22 3 (fld v 22 3)
      let r := if bit v 25 then setFld r (28 + fld v 22 3) 1 0 else r
      let x := { x with regs := { x.regs with cbCtl := r } }
      if bit v 25 then
        ({ x with cbLoad := some ⟨fld v 22 3, fld v 10 12 * 1024, false⟩ } : Core).startCopy
      else x

/-- The copy completes and the table is armed. A copy from the fold cache's range is refused with BOUNDS (R40, R249): nothing is
written and the table is not armed (log entry 89). -/
def opCbDone (s : State) (f c : Nat) : State :=
  match (s.core f c).cbLoad with
  | none => s
  | some l =>
    if !l.copying || !(s.fold f).clocked then s
    else
      let a := foldBase + f * foldSlot + l.offset
      if foldSize - s.fcBytes f < l.offset + 1024 then s.updCore f c fun x => { x with cbLoad := none } else
      let ue := s.ueIn a 1024
      let entries := (List.range 256).map fun e =>
        if (s.ueIn (a + 4 * e) 4).isSome then none else some (s.read32 (a + 4 * e))
      let s := (s.corrected a 1024).updCore f c fun x =>
        let bank := if bit (BitVec.ofNat 8 x.cbBanks) l.table then 0 else 1
        { x with
          cbData := (List.range 256).foldl (fun m e =>
            SMap.set none m ((bank * 8 + l.table) * 256 + e) (entries.getD e none)) x.cbData,
          cbLoad := none,
          regs := { x.regs with cbCtl := setFld x.regs.cbCtl (28 + l.table) 1 1 } }
      match ue with
      | some u => s.consumeUE (coreAgent f c) u
      | none => s

/-! ### Completion (R120, R162, R165) -/

def opChainComplete (s : State) (f c : Nat) (second : Bool) : State :=
  let n := if second then 1 else 0
  match (s.core f c).inflight[n]? with
  | none => s
  | some r =>
    if !(s.fold f).clocked then s
    else
      let d := r.d.words
      let ch := s.chain f c r
      let (s, ue) := (ch.planes.foldl (fun s z => s.chainCorrect ch z) s).runChain ch
      let s := s.updCore f c fun x => ({ x with inflight := x.inflight.eraseIdx n } : Core).startCopy
      let s := if chSrcAcc d then
          let h := s.half f (chArr d) (chHalf d)
          let rel := h.rel || chRel d
          s.setHalf f (chArr d) (chHalf d)
            (if h.readers ≤ 1 then { st := if rel then .empty else .full, readers := 0, rel := false }
             else { h with readers := h.readers - 1, rel := rel })
        else s
      let s := match ue with
        | some u => s.consumeUE (coreAgent f c) u
        | none => s
      if chEvtEn d then s.evtApply f (chEvt d) 1 else s

end Sys2Proof.Machine
end

