-- ==== Sys2Proof/Machine/Window.lean ====
section
/-!
DEFINITION. Sys2Proof/Machine/Window.lean: contributions entering the windows of a reduce instance (R80–R84, R388,
R389, R394).
-/
namespace Sys2Proof.Machine

def Inst.chunk (x : Inst) (c : Nat) : Chunk := x.chunks.getD c { e := 0 }
def Inst.updChunk (x : Inst) (c : Nat) (g : Chunk → Chunk) : Inst :=
  { x with chunks := x.chunks.set c (g (x.chunk c)) }

/-- A finite non-zero value's exponent raises EMAX_obs (R389). -/
def emaxOf (old : Int) (v : W32) : Int :=
  match f32 v with
  | .fin _ m e => if m = 0 then old else max old ((Nat.log2 m : Int) + e)
  | _ => old

/-- One FP32 contribution offered to a slot in window mode; the second component says that the element already holds
256 contributions (R82). A NaN or an infinity is judged first and refuses nothing, an overflow of the window second: the spec
gives no order between R82 and R81, R84 (log entry 87, DESIGN CHOICE). -/
def Inst.enterWindow (x : Inst) (slot : Nat) (v : W32) : Inst × Bool :=
  let c := slot / 4096
  let ch := x.chunk c
  let el := SMap.get ({} : WElem) x.win slot
  if !(f32 v).isFinite then (x.updChunk c fun h => { h with nonfin := true }, false)
  else
    let x := x.updChunk c fun h => { h with emax := emaxOf h.emax v }
    if w96Overflows ch.e v then (x.updChunk c fun h => { h with ovf := true }, false)
    else if 256 ≤ el.cnt then (x, true)
    else ({ x with win := SMap.set {} x.win slot { el with n := el.n + w96Enter ch.e v, cnt := el.cnt + 1 } }, false)

/-- One FP32 contribution in pair mode (R394). -/
def Inst.enterPair (x : Inst) (slot : Nat) (v : W32) : Inst :=
  let el := SMap.get ({} : WElem) x.win slot
  let (hi, lo) := pairAdd el.hi el.lo v
  let x := { x with win := SMap.set {} x.win slot { el with hi := hi, lo := lo } }
  if (f32 hi).isFinite then x else x.updChunk (slot / 4096) fun h => { h with nonfin := true }

/-- The open instance that registers W96 storage for a table's BASE (R314): one of a window-mode plan whose GRAD
starts there. -/
def State.w96Inst (s : State) (base : Nat) : Option Nat :=
  firstIdx s.col.insts.length fun i =>
    match s.col.insts[i]? with
    | some x => x.alloc && planMode ((s.planWords x.plan).getD []) = 0 && (s.planTensor x.plan 0).base = base
    | none => false

def State.updInst (s : State) (i : Nat) (g : Inst → Inst) : State :=
  match s.col.insts[i]? with
  | some x => { s with col := { s.col with insts := s.col.insts.set i (g x) } }
  | none => s

end Sys2Proof.Machine
end

