-- ==== Sys2Proof/Machine/Stream.lean ====
section
/-!
DEFINITION. Sys2Proof/Machine/Stream.lean: streams, gather and scatter, and layout transforms (chapter 09). Data moves
when a piece is released, or when the descriptor completes (log entry 11), so every released unit is as it stands at
that moment (R299–R301).
-/
namespace Sys2Proof.Machine

/-! ### Stream fields (R285) -/

def stKind (d : List W64) : Nat := fld (wd d 0) 12 3
def stEvtEn (d : List W64) : Bool := bit (wd d 0) 15
def stRing (d : List W64) : Bool := bit (wd d 0) 16
def stEarly (d : List W64) : Bool := bit (wd d 0) 17
def stSkip (d : List W64) : Bool := bit (wd d 0) 18
def stSpan (d : List W64) : Bool := bit (wd d 0) 19
def stSendSig (d : List W64) : Bool := bit (wd d 0) 20
def stSX0 (d : List W64) : Int := sext 32 (fld (wd d 3) 0 32)
def stSY0 (d : List W64) : Int := sext 32 (fld (wd d 3) 32 32)
def stDX0 (d : List W64) : Int := sext 32 (fld (wd d 4) 0 32)
def stDY0 (d : List W64) : Int := sext 32 (fld (wd d 4) 32 32)
def stNX (d : List W64) : Nat := fld (wd d 5) 0 32
def stNY (d : List W64) : Nat := fld (wd d 5) 32 32
def stZ (d : List W64) (i : Nat) : Nat := fld (wd d 6) (16 * i) 16
def stEvt (d : List W64) : Nat := fld (wd d 7) 0 6
def stCred (d : List W64) : Nat := fld (wd d 7) 8 6
def stPiece (d : List W64) : Nat := fld (wd d 7) 16 12
def stSlot (d : List W64) : Nat := fld (wd d 7) 32 6
def stRoute (d : List W64) : Nat := fld (wd d 7) 40 4
def stVc (d : List W64) : Nat := fld (wd d 7) 44 2
def stRlfold (d : List W64) : Nat := fld (wd d 7) 46 12
def stRslot (d : List W64) : Nat := fld (wd d 7) 58 6

def kLOAD : Nat := 0
def kSTORE : Nat := 1
def kCOPY : Nat := 2
def kSEND : Nat := 3

/-- Reserved fields, those that a clear flag reserves included. -/
def stReserved (d : List W64) : Bool :=
  fld (wd d 0) 21 11 ≠ 0 || fld (wd d 1) 48 16 ≠ 0 || fld (wd d 2) 48 16 ≠ 0
  || fld (wd d 7) 6 2 ≠ 0 || fld (wd d 7) 14 2 ≠ 0 || fld (wd d 7) 28 4 ≠ 0 || fld (wd d 7) 38 2 ≠ 0
  || (!stEvtEn d && stEvt d ≠ 0) || (!stRing d && (stCred d ≠ 0 || stPiece d ≠ 0))
  || (!stSkip d && stSlot d ≠ 0) || (!stSendSig d && (stRlfold d ≠ 0 || stRslot d ≠ 0))
  || (stKind d ≠ kSEND && (stRoute d ≠ 0 || stVc d ≠ 0))

def Issued.sub (e : Issued) (k : Nat) : TDesc := TDesc.ofWords (e.subs.getD k [])
def stSrc (e : Issued) : TDesc := e.sub 0
def stDst (e : Issued) : TDesc := e.sub 1

/-- Rows of a piece, pieces of a stream, and ring positions (R290). -/
def stRows (d : List W64) : Nat := if stRing d then max 1 (stPiece d) else stNY d
def stPieces (d : List W64) : Nat := ceilDiv (stNY d) (max 1 (stRows d))
def stRingLen (e : Issued) : Nat :=
  if stRing e.words then (stDst e).dim 1 / max 1 (stPiece e.words) else stPieces e.words

/-- 1 when lines run along dimension 1. -/
def TDesc.axis (t : TDesc) : Nat := if t.blocked && t.lineAxis = 1 then 1 else 0

/-! ### Moving whole lines (R286–R288, R97–R102) -/

/-- A rectangle to move: origins, extents, and the destination's wrap of dimension 1 (0: none). -/
structure Rect where
  sx : Int
  sy : Int
  sz2 : Nat := 0
  sz3 : Nat := 0
  dx : Int
  dy : Int
  dz2 : Nat := 0
  dz3 : Nat := 0
  nx : Nat
  ny : Nat
  wrap : Nat := 0
  deriving DecidableEq, Repr

/-- Bytes at an address as a mover reads them: those of an uncorrectable unit are undefined (R322). -/
def State.moveBytes (s : State) (a n : Nat) : List Byte :=
  if s.ue.isEmpty then s.readBytes a n
  else (List.range n).map fun i =>
    if s.badAt (a + i) then Config.damaged (canon (a + i) + s.free * 2 ^ 48) else s.readByte (a + i)

/-- The bytes one line of a rectangle writes: line `k` along the axis at cross position `o`; none when all of it is
outside the destination. A whole line is copied with its scale. A line of an MX format some of whose positions are clamped,
or which the window fills only in part, is encoded anew with a scale of its own (R102); for the clamped positions of a full
line the manual does not say whether the source's scale stays (DESIGN CHOICE, log entry 94). -/
def State.rectLine (s : State) (src dst : TDesc) (r : Rect) (o k : Nat) : Option (Nat × List Byte) :=
  let ax := src.axis
  let na := if ax = 1 then r.ny else r.nx
  let cnt := min 32 (na - 32 * k)
  let at_ := fun (x0 y0 : Int) (p : Nat) =>
    if ax = 1 then (x0 + o, y0 + (32 * k + p : Nat)) else (x0 + (32 * k + p : Nat), y0 + o)
  let wrapY := fun (q : Int × Int) => if r.wrap = 0 then q else (q.1, q.2 % (r.wrap : Int))
  let inD := fun (p : Nat) =>
    let q := wrapY (at_ r.dx r.dy p)
    dst.inside 0 q.1 && dst.inside 1 q.2 && dst.inside 2 r.dz2 && dst.inside 3 r.dz3
  let inS := fun (p : Nat) => let q := at_ r.sx r.sy p; src.inside 0 q.1 && src.inside 1 q.2
  let nin := ((List.range cnt).filter inD).length
  if nin = 0 then none
  else
    let q0 := wrapY (at_ r.dx r.dy 0)
    let addr := dst.lineAddr q0.1.toNat q0.2.toNat r.dz2 r.dz3
    let b := dst.format.bits
    let sp := fun (p : Nat) => let q := at_ r.sx r.sy p; src.readAt q.1 q.2 r.sz2 r.sz3
    let (x, y) := let q := at_ r.sx r.sy 0; (q.1.toNat, q.2.toNat)
    let plain := fun (p : Nat) => sp p = some (if ax = 1 then (x, y + p, r.sz2, r.sz3) else (x + p, y, r.sz2, r.sz3))
    if cnt = 32 && nin = 32 && (List.range 32).all (fun p => inS p && plain p) then
      some (addr, s.moveBytes (src.lineAddr x y r.sz2 r.sz3) src.lineBytes)
    else
      let hit := fun (p : Nat) => let q := at_ r.sx r.sy p; s.damagedAt src q.1 q.2 r.sz2 r.sz3
      let bad := dst.format.isMX && (List.range nin).any hit
      let pat := fun p =>
        let q := at_ r.sx r.sy p
        if hit p then (Config.freeWord (s.free + 1 + 64 * (addr + p))).toNat else s.winPat src q.1 q.2 r.sz2 r.sz3
      let val := fun p => let q := at_ r.sx r.sy p; s.winVal src q.1 q.2 r.sz2 r.sz3
      let (sc, pats) := if dst.format.isMX then
          let (sc, pats, _) := mxBlock dst.format ((List.range nin).map fun p => (val p, .rne))
          (sc, pats)
        else (0, (List.range nin).map pat)
      let packed := (List.range 32).foldl (fun acc i => acc + ((pats.getD i 0) % 2 ^ b) <<< (b * i)) 0
      let whole := dst.format.isMX || dst.format = .cb4 || (r.wrap ≠ 0 && ax = 1)
      let body := leBytes (if whole then 4 * b else nin * b / 8) packed
      let body := if dst.format.isMX then BitVec.ofNat 8 sc :: body else body
      some (addr, if bad then (List.range body.length).map fun i => Config.damaged (addr + i + (s.free + 1) * 2 ^ 48)
        else body)

/-- The lines of a rectangle whose group of 32 source rows (from the window's first) is kept: cross position and line. -/
def rectKeys (src : TDesc) (r : Rect) (keep : Nat → Bool) : List (Nat × Nat) :=
  let ax := src.axis
  let (na, no) := if ax = 1 then (r.ny, r.nx) else (r.nx, r.ny)
  (List.range no).flatMap fun o => ((List.range (ceilDiv na 32)).filter fun k =>
    keep (if ax = 1 then k else o / 32)).map fun k => (o, k)

/-- Every kept line of a rectangle. -/
def State.rectLines (s : State) (src dst : TDesc) (r : Rect) (keep : Nat → Bool) : List (Nat × List Byte) :=
  (rectKeys src r keep).filterMap fun x => s.rectLine src dst r x.1 x.2

/-- Clamped reads and discarded writes of a rectangle (R98, R99). -/
def rectClamps (src dst : TDesc) (r : Rect) (keep : Nat → Bool) : Nat × Nat :=
  let rows := (List.range r.ny).filter fun j => keep (j / 32)
  let rd := rows.foldl (fun n (j : Nat) => n + src.outsideCount r.sx (r.sy + j) r.nx 1) 0
  let wr := rows.foldl (fun n (j : Nat) =>
    let y : Int := if r.wrap = 0 then r.dy + j else (r.dy + j) % (r.wrap : Int)
    n + dst.outsideCount r.dx y r.nx 1) 0
  (rd, wr)

/-- The first uncorrectable unit a rectangle reads. -/
def State.rectUE (s : State) (src : TDesc) (r : Rect) (keep : Nat → Bool) : Option Nat :=
  if s.ue.isEmpty then none
  else ((List.range r.ny).filter fun j => keep (j / 32)).findSome? fun (j : Nat) =>
    s.ueRuns (src.runs false (planeWin r.sx (r.sy + j) r.nx 1 r.sz2 r.sz3))

/-- Reading a rectangle corrects what can be corrected (R267). -/
def State.rectCorrected (s : State) (src : TDesc) (r : Rect) (keep : Nat → Bool) : State :=
  if s.ue.isEmpty then s
  else ((List.range r.ny).filter fun j => keep (j / 32)).foldl (fun s (j : Nat) =>
    s.correctRuns (src.runs false (planeWin r.sx (r.sy + j) r.nx 1 r.sz2 r.sz3))) s

def State.writeLines (s : State) (who : Nat) (ls : List (Nat × List Byte)) : State :=
  ls.foldl (fun s l => s.write who l.1 l.2) s

def lineUnits (ls : List (Nat × List Byte)) : Nat := ceilDiv (ls.foldl (fun n l => n + l.2.length) 0) 64

/-- Whether an address is stack memory. -/
def isInter (a : Nat) : Bool :=
  match place a with
  | .inter _ => true
  | _ => false

/-- Stream units of 64 bytes into and out of the fold store (R627). -/
def State.countUnits (s : State) (f : Nat) (src dst : TDesc) (n : Nat) (local_ : Bool) : State :=
  let s := if local_ && !isInter dst.base then s.pmc f 0x38 n else s
  if isInter src.base then s else s.pmc f 0x39 n

/-! ### Packets of a SEND (R307, R308, R345) -/

/-- Put a run into address order. -/
def insRun : List (Nat × List Byte) → Nat × List Byte → List (Nat × List Byte)
  | [], x => [x]
  | y :: ys, x => if x.1 ≤ y.1 then x :: y :: ys else y :: insRun ys x

/-- Join runs that follow on each other. -/
def joinRuns (l : List (Nat × List Byte)) : List (Nat × List Byte) :=
  (l.foldl (fun (out : List (Nat × List Byte)) x =>
    match out with
    | y :: ys => if y.1 + y.2.length = x.1 then (y.1, y.2 ++ x.2) :: ys else x :: out
    | [] => [x]) []).reverse

/-- Cut a run into bodies of at most 16 KiB that end at every 2 MiB boundary: unit address, units' bytes, and the C
field with HEAD_SKIP and TAIL_SKIP. -/
def cutRun : Nat → Nat → List Byte → List (Nat × List Byte × Nat)
  | 0, _, _ => []
  | _, _, [] => []
  | n + 1, a, bs =>
    let u := a / 64 * 64
    let e := min (a + bs.length) (min (u + 16384) ((u / 0x200000 + 1) * 0x200000))
    let ue := (e + 63) / 64 * 64
    let body := List.replicate (a - u) 0 ++ bs.take (e - a) ++ List.replicate (ue - e) 0
    (u, body, (a - u) + (ue - e) * 256) :: cutRun n e (bs.drop (e - a))

/-- The DATA packets that carry a list of runs. -/
def dataPackets (vc src tag : Nat) (ls : List (Nat × List Byte)) : List Packet :=
  (joinRuns (ls.foldl insRun [])).flatMap fun l =>
    (cutRun (l.2.length / 16384 + l.2.length / 0x200000 + 3) l.1 l.2).map fun (u, body, c) =>
      mkPacket ptDATA vc src 0 u 0 tag c body

/-! ### Contexts -/

def State.ctx (s : State) (f k : Nat) : Option Ctx := SMap.get none (s.fold f).ctxs k
def State.setCtx (s : State) (f k : Nat) (c : Option Ctx) : State :=
  s.updFold f fun v => { v with ctxs := SMap.set none v.ctxs k c }

/-- A piece past the ring for which no count has been consumed yet (R291). -/
def Ctx.needsCredit (c : Ctx) : Bool :=
  stRing c.d.words && c.credits + stRingLen c.d < stPieces c.d.words

/-- The next piece may be released. -/
def Ctx.mayRelease (c : Ctx) : Bool :=
  hdrType c.d.words = 0x30 && c.gateOpen && c.released < stPieces c.d.words
  && (!stRing c.d.words || c.released < stRingLen c.d + c.credits)

/-- The rectangle of a piece. -/
def pieceRect (e : Issued) (p : Nat) : Rect :=
  let d := e.words
  let r0 := p * stRows d
  { sx := stSX0 d, sy := stSY0 d + r0, sz2 := stZ d 0, sz3 := stZ d 1,
    dx := stDX0 d, dy := stDY0 d + r0, dz2 := stZ d 2, dz3 := stZ d 3,
    nx := stNX d, ny := min (stRows d) (stNY d - r0), wrap := if stRing d then (stDst e).dim 1 else 0 }

/-- A stream's own writes do not notify it (R299). -/
def State.writeOwn (s : State) (f k : Nat) (ls : List (Nat × List Byte)) : State :=
  let t := s.writeLines (16 + f) ls
  { t with notes := t.notes.filter fun n => !(n.fold = f && n.ctx = k) || s.notes.contains n }

/-- Some units of a stream's source are fetched at use: a base die had no entry for it (R302). -/
def Ctx.atUse (c : Ctx) : Bool := isInter (stSrc c.d).base && c.watched.length < 20

/-- Move the data of a rectangle of a stream: to memory, or as packets of a SEND. -/
def State.moveRect (s : State) (f : Nat) (owner : Option (Nat × Nat × Nat)) (e : Issued) (r : Rect)
    (keep : Nat → Bool) : State × Option Nat :=
  let d := e.words
  let src := stSrc e
  let dst := stDst e
  let ls := s.rectLines src dst r keep
  let ue := s.rectUE src r keep
  let (rd, wr) := rectClamps src dst r keep
  let s := s.rectCorrected src r keep
  let s := (s.countClamp f rd wr).countUnits f src dst (lineUnits ls) (stKind d ≠ kSEND)
  let s := if stKind d = kSEND then
      let ps := dataPackets (stVc d) (16 + f) (hdrTag d) ls
      let ps := if stSendSig d then ps ++ [mkSignal (stVc d) (16 + f) (stRslot d) (stRlfold d) 1 (hdrTag d)] else ps
      ps.foldl (fun s k => s.send (stRoute d - 1) k owner) s
    else match owner with
      | some (_, k, _) => s.writeOwn f k ls
      | none => s.writeLines (16 + f) ls
  let s := match ue with
    | some u => { s with free := s.free + 2 }.consumeUE (16 + f) u
    | none => s
  (s, ue)

/-- Release the next piece: its data, and its signal with RING (R284, R292). -/
def State.releasePiece (s : State) (f k : Nat) : State :=
  match s.ctx f k with
  | none => s
  | some c =>
    let d := c.d.words
    let n := (stNY d + 31) / 32
    let (s, ue) := s.moveRect f (some (f, k, c.released)) c.d (pieceRect c.d c.released)
      fun g => !(maskHas c.skipMask (if n = 0 then 0 else g))
    let s := s.setCtx f k (some { c with released := c.released + 1, held := false,
                                         status := if ue.isSome && c.status = 0 then Status.uncorrectable.code
                                                   else c.status })
    if stRing d && stEvtEn d && stKind d ≠ kSEND then s.evtApply f (stEvt d) 1 else s

/-- Whether the next piece may be read: units fetched at use are read only once every earlier piece has been signalled,
which for a SEND is when it has been acknowledged (R302, R307). -/
def Ctx.signalled (c : Ctx) : Bool := stKind c.d.words ≠ kSEND || !c.atUse || c.released ≤ c.acked

/-- Unwatched streams release what they may at once: rings and SENDs here, others when they complete. -/
def State.advance : Nat → State → Nat → Nat → State
  | 0, s, _, _ => s
  | n + 1, s, f, k =>
    match s.ctx f k with
    | some c =>
      if c.watched.isEmpty && c.mayRelease && c.signalled && (stRing c.d.words || stKind c.d.words = kSEND) then
        State.advance n (s.releasePiece f k) f k
      else s
    | none => s

/-! ### Watch entries (R298, R302) -/

/-- Register a watch entry with every base die; the dies that took it. -/
def State.register (s : State) (f k : Nat) (lo hi : Nat) : State × List Nat :=
  (List.range 20).foldl (fun (p : State × List Nat) d =>
    let v := p.1.die d
    if v.watch.length < 512 then
      (p.1.updDie d fun v => { v with watch := v.watch ++ [⟨f, k, lo, hi⟩],
                                      wHigh := max v.wHigh (v.watch.length + 1) }, p.2 ++ [d])
    else
      ((p.1.updDie d fun v => { v with wRefused := satAdd 16 v.wRefused 1 }).foldRegs f fun r =>
        { r with strWatch := bumpFld r.strWatch 32 16 1 }, p.2)) (s, [])

/-- First and last byte of the units a window reaches. -/
def runsExtent (rs : List (Nat × Nat)) : Nat × Nat :=
  match rs with
  | [] => (0, 0)
  | r :: _ => rs.foldl (fun (p : Nat × Nat) x => (min p.1 (x.1 / 64 * 64), max p.2 ((x.1 + x.2 + 63) / 64 * 64)))
      (r.1 / 64 * 64, r.1)

def stWin (d : List W64) : Win := planeWin (stSX0 d) (stSY0 d) (stNX d) (stNY d) (stZ d 0) (stZ d 1)

/-- An EARLY stream writes its destination while its gate is closed (R303): the lines whose units it need not hold for use,
of the pieces that its ring has room for. -/
def State.prefetch (s : State) (f k : Nat) : State :=
  match s.ctx f k with
  | none => s
  | some c =>
    let d := c.d.words
    let src := stSrc c.d
    let early := fun (r : Rect) (x : Nat × Nat) =>
      let na := if src.axis = 1 then r.ny else r.nx
      let cnt := min 32 (na - 32 * x.2)
      let w := if src.axis = 1 then planeWin (r.sx + x.1) (r.sy + (32 * x.2 : Nat)) 1 cnt r.sz2 r.sz3
        else planeWin (r.sx + (32 * x.2 : Nat)) (r.sy + x.1) cnt 1 r.sz2 r.sz3
      !isInter src.base || (src.runs false w).all fun run =>
        (rangeFrom (run.1 / 64) ((run.1 + run.2 - 1) / 64)).all fun u => c.watched.contains (stackOf (64 * u)).1
    (List.range (min (stPieces d) (stRingLen c.d))).foldl (fun s p =>
      let r := pieceRect c.d p
      let ls := ((rectKeys src r fun g => !(maskHas c.skipMask g)).filter (early r)).filterMap fun x =>
        s.rectLine src (stDst c.d) r x.1 x.2
      s.writeOwn f k ls) s

/-! ### Spans (R294–R296) -/

/-- The 64-byte units of byte runs, in order and without repeats. -/
def runUnits (rs : List (Nat × Nat)) : List Nat :=
  rs.foldl (fun us r => (rangeFrom (r.1 / 64) ((r.1 + r.2 - 1) / 64)).foldl insNat us) []

/-- `read`: the byte runs that the stream reads; `extent`: those of its whole source, at whose last byte spans are clipped.
Fetches of span units that a page's attributes forbid are dropped and counted; an uncorrectable error in a span
unit is logged and consumed by nobody. -/
def State.spans (s : State) (f : Nat) (read extent : List (Nat × Nat)) : State :=
  let us := runUnits read
  let hi := (runsExtent extent).2 / 64
  let extra := (us.filter fun u => u = 0 || !(us.contains (u - 1))).flatMap fun u =>
    ((List.range 16).map (u + ·)).filter fun v => v < hi && !(us.contains v)
  extra.foldl (fun s v =>
    match s.accStatus (16 + f) .read (64 * v) 64 with
    | .ok => match s.ueIn (64 * v) 64 with
      | some u => s.logUE (16 + f) u 0
      | none => s
    | .deniedSecure => s.foldRegs f fun r => { r with strDrop := bumpFld r.strDrop 0 32 1 }
    | _ => s.foldRegs f fun r => { r with strDrop := bumpFld r.strDrop 32 16 1 }) s

/-! ### How a descriptor ends (R284, R322, R325) -/

/-- The EVT field of any descriptor of the stream queue, when EVT_EN = 1. -/
def strEvt (d : List W64) : Option Nat :=
  match hdrType d with
  | 0x30 => if stEvtEn d then some (stEvt d) else none
  | 0x38 => if bit (wd d 0) 12 then some (fld (wd d 3) 8 6) else none
  | _ => if bit (wd d 0) 12 then some (fld (wd d 7) 32 6) else none

/-- A descriptor leaves its context with a status: the error record, the watch entries, the signal. -/
def State.endStream (s : State) (f k : Nat) (st : Nat) (signal : Bool) : State :=
  match s.ctx f k with
  | none => s
  | some c =>
    let d := c.d.words
    let s := s.setCtx f k none
    let s := if st ≠ 0 then s.foldRegs f fun r =>
        if fld r.strErr 0 8 = 0 then { r with strErr := put 0 8 st ||| put 8 8 (hdrType d) ||| put 16 48 c.d.addr }
        else r
      else s
    let kept := c.skipMask ≠ 0 && (s.fold f).demand.any fun q => q.slot = stSlot d
    let s := if kept then
        c.watched.foldl (fun s b => s.updDie b fun v => { v with
          watch := v.watch.map fun w => if w.fold = f && w.ctx = k then { w with ctx := 16 + stSlot d } else w }) s
      else s.dropWatches f k
    let s := if hdrType d = 0x30 then s.unwait f (stCred d) (.cred k) else s
    let s := match c.d.gate with
      | some g => s.unwait f g (.gateCtx k)
      | none => s
    if signal then
      match strEvt d with
      | some n => s.evtApply f n 1
      | none => s
    else s

/-! ### Start (R283, R303–R305) -/

/-- A gated head of the stream queue waits on its slot, unless it is EARLY. -/
def State.gateStr (s : State) (f : Nat) : State :=
  match (s.fold f).strQ with
  | e :: _ =>
    match e.gate with
    | some g => if hdrType e.words = 0x30 && stEarly e.words then s else s.await f g .gateStr
    | none => s
  | [] => s

def State.freeCtx (s : State) (f : Nat) : Option Nat := firstIdx 16 fun k => (s.ctx f k).isNone

/-- The groups a SKIP stream skips (R304, R305), before its demand entry is looked for. -/
def State.skipSet (s : State) (f : Nat) (d : List W64) : Nat :=
  let n := ceilDiv (stNY d) 32
  if !stSkip d || !(s.fold f).regs.specEn then 0
  else match SMap.get none (s.fold f).spec (stSlot d) with
    | some sl => if sl.nG = n then 2 ^ n - 1 - (sl.mask &&& (2 ^ n - 1)) else 0
    | none => 0

def State.isEarly (e : Issued) : Bool := hdrType e.words = 0x30 && stEarly e.words

def opStreamStart (s : State) (f : Nat) : State :=
  match (s.fold f).strQ, s.freeCtx f with
  | e :: rest, some k =>
    let d := e.words
    let str := hdrType d = 0x30
    let early := State.isEarly e
    let ready := early || (match e.gate with
      | some g => s.gateReady f g .gateStr
      | none => true)
    let skip0 := if str then s.skipSet f d else 0
    let taken := skip0 ≠ 0 && (s.fold f).demand.any fun q => q.slot = stSlot d
    if !(s.fold f).clocked || !ready || taken then s
    else
      let skip := if 16 ≤ (s.fold f).demand.length then 0 else skip0
      let s := if early then s else match e.gate with
        | some g => s.consumeGate f g
        | none => s
      let watch := str && stKind d ≠ kSTORE && isInter (stSrc e).base
      let rs := (stSrc e).runs false (stWin d)
      let read := if skip = 0 then rs else (List.range (ceilDiv (stNY d) 32)).flatMap fun g =>
        if maskHas skip g then []
        else (stSrc e).runs false
          (planeWin (stSX0 d) (stSY0 d + 32 * g) (stNX d) (min 32 (stNY d - 32 * g)) (stZ d 0) (stZ d 1))
      let (lo, hi) := runsExtent rs
      let (s, dies) := if watch then s.register f k (lo / 4096 / 20) ((hi - 1) / 4096 / 20) else (s, [])
      let c : Ctx := { d := e, gateOpen := !early || e.gate.isNone, held := early && e.gate.isSome, watched := dies,
                       pages := (lo / 4096 / 20, (hi - 1) / 4096 / 20), skipMask := skip }
      let s := s.updFold f fun v => { v with
        strQ := rest, ctxs := SMap.set none v.ctxs k (some c),
        demand := if skip = 0 then v.demand else v.demand ++ [{ slot := stSlot d, mask := skip, d := e, dies := dies }] }
      let s := if str && stSpan d && stKind d ≠ kSTORE then s.spans f read rs else s
      let s := if c.held && stKind d ≠ kSEND then s.prefetch f k else s
      let s := if early then (match e.gate with
        | some g => s.await f g (.gateCtx k)
        | none => s) else s
      let s := if str && c.needsCredit then s.await f (stCred d) (.cred k) else s
      let s := if str && stKind d = kSEND && !s.inSvc (stRoute d - 1) then s.endStream f k Status.linkDown.code true
        else s.advance (stPieces d) f k
      s.gateStr f
  | _, _ => s

/-! ### While a stream runs -/

/-- STREAM_CREDIT (R291). -/
def opStreamCredit (s : State) (f k : Nat) : State :=
  match s.ctx f k with
  | some c =>
    let slot := stCred c.d.words
    if !(s.fold f).clocked || hdrType c.d.words ≠ 0x30 || !c.needsCredit || !s.gateReady f slot (.cred k) then s
    else
      let c' := { c with credits := c.credits + 1 }
      let s := (s.consumeGate f slot).setCtx f k (some c')
      let s := if c'.needsCredit then s.await f slot (.cred k) else s
      s.advance (stPieces c.d.words) f k
  | none => s

/-- The byte runs that a stream has still to release. -/
def Ctx.unreleased (c : Ctx) : List (Nat × Nat) :=
  let d := c.d.words
  let r0 := c.released * stRows d
  (List.range (stNY d - r0)).flatMap fun j =>
    if maskHas c.skipMask ((r0 + j) / 32) then []
    else (stSrc c.d).runs false (planeWin (stSX0 d) (stSY0 d + (r0 + j : Nat)) (stNX d) 1 (stZ d 0) (stZ d 1))

/-- WATCH_NOTIFY (R299): a base die delivers the oldest notification that it owes the stream; the units of the page that the
stream has fetched and not released are discarded and read again before the release. `units`: how many it had fetched,
which timing decides. -/
def opWatchNotify (s : State) (f k units : Nat) : State :=
  match s.ctx f k, s.notes.find? fun n => n.fold = f && n.ctx = k with
  | some c, some n =>
    let here := (runUnits c.unreleased).filter fun u =>
      (stackOf (64 * u)).1 = n.die && (stackOf (64 * u)).2 / 4096 = n.page
    { s with notes := s.notes.erase n }.foldRegs f fun r =>
      { r with strWatch := bumpFld r.strWatch 0 32 (min units here.length) }
  | _, _ => s

/-- SEAL_REPLY (R300, R301): the last reply to a seal has come; each die's reply comes after every notification that it
owed. -/
def opSealReply (s : State) (f k : Nat) : State :=
  match s.ctx f k with
  | some c =>
    if (s.fold f).clocked && !c.watched.isEmpty && c.mayRelease && c.signalled
        && !(s.notes.any fun n => n.fold = f && n.ctx = k) then s.releasePiece f k else s
  | none => s

/-- STREAM_GATE_OPEN (R303). -/
def opGateOpen (s : State) (f k : Nat) : State :=
  match s.ctx f k with
  | some c =>
    match c.d.gate with
    | some g =>
      if (s.fold f).clocked && !c.gateOpen && s.gateReady f g (.gateCtx k) then
        ((s.consumeGate f g).setCtx f k (some { c with gateOpen := true, held := false })).advance
          (stPieces c.d.words) f k
      else s
    | none => s
  | none => s

/-! ### Completion -/

/-- STREAM_COMPLETE: every piece is released and, for a SEND, acknowledged. -/
def opStreamComplete (s : State) (f k : Nat) : State :=
  match s.ctx f k with
  | some c =>
    let d := c.d.words
    if !(s.fold f).clocked || hdrType d ≠ 0x30 then s
    else if stKind d = kSEND then
      if stPieces d ≤ c.acked then s.endStream f k c.status false else s
    else
      let s := if c.watched.isEmpty && !stRing d && c.mayRelease then s.releasePiece f k else s
      match s.ctx f k with
      | some c => if stPieces d ≤ c.released then s.endStream f k c.status (!stRing d) else s
      | none => s
  | none => s

/-- A port still holds a packet of a piece. -/
def Port.holds (x : Port) (o : Nat × Nat × Nat) : Bool :=
  (x.txq.any fun q => q.2.any fun t => t.owner = some o) || x.unacked.any fun fr => fr.pkt.owner = some o

/-- SEND_ACKNOWLEDGED (R307): the next piece's packets are all acknowledged. -/
def opSendAck (s : State) (f k : Nat) : State :=
  match s.ctx f k with
  | some c =>
    let d := c.d.words
    if hdrType d ≠ 0x30 || stKind d ≠ kSEND || c.released ≤ c.acked || (s.port (stRoute d - 1)).holds (f, k, c.acked)
    then s
    else
      let s := s.setCtx f k (some { c with acked := c.acked + 1 })
      let s := match strEvt d with
        | some n => s.evtAdd f n 1
        | none => s
      s.advance (stPieces d) f k
  | none => s

/-- Every SEND on a port that has left service completes with LINK_DOWN (R322, R360). -/
def State.failSends (s : State) (p : Nat) : State :=
  s.folds.foldl (fun s (f, v) =>
    v.ctxs.foldl (fun s (k, c) =>
      match c with
      | some c =>
        if hdrType c.d.words = 0x30 && stKind c.d.words = kSEND && stRoute c.d.words = p + 1
            && c.acked < stPieces c.d.words then
          s.endStream f k Status.linkDown.code true
        else s
      | none => s) s) s

/-! ### Demand fetches (R306) -/

/-- The first matmul in flight that waits for a group takes its rows from the demand entry's stream. -/
def opDemandFetch (s : State) (f : Nat) : State :=
  if !(s.fold f).clocked then s
  else match (s.fold f).matRun.find? fun r => !r.pending.isEmpty with
    | none => s
    | some r =>
      let g := (r.pending.headD (0, false)).1
      let drop := fun (v : Fold) => { v with matRun := v.matRun.map fun x =>
        if x = r then { x with pending := x.pending.drop 1 } else x }
      match (s.fold f).demand.find? fun q => q.slot = mmSlot r.d.words with
      | none => s.updFold f drop
      | some q =>
        let (s, _) := s.moveRect f none q.d (pieceRect q.d 0) fun h => h = g
        (s.updFold f drop).foldRegs f fun r => { r with strWatch := bumpFld r.strWatch 48 16 1 }

/-! ### Gather and scatter (R309–R314) -/

def gsOp (d : List W64) : Nat := fld (wd d 0) 13 2
def gsTX0 (d : List W64) : Int := sext 32 (fld (wd d 4) 0 32)
def gsNX (d : List W64) : Nat := fld (wd d 4) 32 32
def gsIX0 (d : List W64) : Int := sext 32 (fld (wd d 5) 0 32)
def gsIY0 (d : List W64) : Int := sext 32 (fld (wd d 5) 32 32)
def gsRX0 (d : List W64) : Int := sext 32 (fld (wd d 6) 0 32)
def gsRY0 (d : List W64) : Int := sext 32 (fld (wd d 6) 32 32)
def gsNIdx (d : List W64) : Nat := fld (wd d 7) 0 24

def gsReserved (d : List W64) : Bool :=
  fld (wd d 0) 15 17 ≠ 0 || fld (wd d 1) 48 16 ≠ 0 || fld (wd d 2) 48 16 ≠ 0 || fld (wd d 3) 48 16 ≠ 0
  || fld (wd d 7) 24 8 ≠ 0 || fld (wd d 7) 38 26 ≠ 0 || (!bit (wd d 0) 12 && fld (wd d 7) 32 6 ≠ 0)

/-- The index at n as an integer; undefined under an uncorrectable error. -/
def State.gsIndex (s : State) (e : Issued) (n : Nat) : Int :=
  let t := e.sub 1
  let x : Int := gsIX0 e.words + n
  sext 32 (if s.damagedAt t x (gsIY0 e.words) 0 0 then (Config.undefAcc 4100 s.free n).toNat
    else s.winPat t x (gsIY0 e.words) 0 0)

/-- What a window of indices has done so far. -/
structure GsAt where
  s  : State
  ue : Option Nat := none
  st : Nat := 0
  deriving DecidableEq, Repr

/-- Copy one row between the table and the row tensor. -/
def State.gsCopy (s : State) (f : Nat) (src dst : TDesc) (r : Rect) : State × Option Nat :=
  let all := fun (_ : Nat) => true
  let ls := s.rectLines src dst r all
  let ue := s.rectUE src r all
  let (rd, wr) := rectClamps src dst r all
  let s := (((s.rectCorrected src r all).countClamp f rd wr).countUnits f src dst (lineUnits ls) true).writeLines
    (16 + f) ls
  (if ue.isSome then { s with free := s.free + 2 } else s, ue)

/-- The FP32 element of a row of the row tensor; undefined under an uncorrectable error. -/
def State.gsElem (s : State) (e : Issued) (k n : Nat) : W32 :=
  let t := e.sub 2
  let x : Int := gsRX0 e.words + k
  let y : Int := gsRY0 e.words + n
  if s.damagedAt t x y 0 0 then Config.undefAcc 4200 s.free (k + 2 ^ 32 * n) else toF32 (s.winVal t x y 0 0)

/-- ADD_FP32 into table row r of the rows ns, in ascending order (R313). -/
def State.gsAdd (s : State) (f : Nat) (e : Issued) (r : Nat) (ns : List Nat) : State × Option Nat :=
  let d := e.words
  let t := e.sub 0
  let rowT := e.sub 2
  let ue := (ns.findSome? fun (n : Nat) =>
      s.ueRuns (rowT.runs false (planeWin (gsRX0 d) (gsRY0 d + n) (gsNX d) 1 0 0))).orElse fun _ =>
    s.ueRuns (t.runs false (planeWin (gsTX0 d) r (gsNX d) 1 0 0))
  let rd := ns.foldl (fun m (n : Nat) => m + rowT.outsideCount (gsRX0 d) (gsRY0 d + n) (gsNX d) 1) 0
  let wr := t.outsideCount (gsTX0 d) r (gsNX d) 1
  let sums := (List.range (gsNX d)).filterMap fun (k : Nat) =>
    let x := gsTX0 d + k
    if !(t.inside 0 x) then none
    else
      let sum := (ns.drop 1).foldl (fun a n => fAdd a (s.gsElem e k n)) (s.gsElem e k (ns.headD 0))
      let old := if s.damagedAt t x r 0 0 then Config.undefAcc (4000 + f) s.free k else toF32 (s.winVal t x r 0 0)
      some (x.toNat, fAdd old sum)
  let s := (ns.foldl (fun s (n : Nat) => s.correctRuns (rowT.runs false (planeWin (gsRX0 d) (gsRY0 d + n) (gsNX d) 1 0 0))) s
    ).correctRuns (t.runs false (planeWin (gsTX0 d) r (gsNX d) 1 0 0))
  let s := sums.foldl (fun s (x, v) => s.writeElem (16 + f) t x r 0 0 v.toNat) (s.countClamp f rd wr)
  (if ue.isSome then { s with free := s.free + 1 } else s, ue)

/-- ADD_W96: every element of one source row enters on its own (R313, R314). The Bool says that an element already
held 256 contributions. -/
def State.gsW96 (s : State) (f : Nat) (e : Issued) (r n : Nat) : State × Bool :=
  let d := e.words
  let t := e.sub 0
  let rowT := e.sub 2
  let rd := rowT.outsideCount (gsRX0 d) (gsRY0 d + n) (gsNX d) 1
  let s := s.countClamp f rd (t.outsideCount (gsTX0 d) r (gsNX d) 1)
  match s.w96Inst t.base with
  | none => (s, false)
  | some i =>
    (List.range (gsNX d)).foldl (fun (p : State × Bool) (k : Nat) =>
      let x := gsTX0 d + k
      if !(t.inside 0 x) then p
      else
        let slot := (t.lineAddr x.toNat r 0 0 + t.elemBit x.toNat r / 8 - t.base) / 4
        match p.1.col.insts[i]? with
        | some inst =>
          let (inst, refused) := inst.enterWindow slot (p.1.gsElem e k n)
          (p.1.updInst i fun _ => inst, p.2 || refused)
        | none => p) (s, false)

/-- One window of up to 256 indices: (n, row). -/
def State.gsWindow (s : State) (f : Nat) (e : Issued) (rows : List (Nat × Nat)) : GsAt :=
  let d := e.words
  let t := e.sub 0
  let rt := e.sub 2
  let gather := hdrType d = 0x31
  let dist := (rows.map (·.2)).eraseDups
  if gather then
    let s := s.foldRegs f fun r => { r with strIdx := bumpFld r.strIdx 32 32 (rows.length - dist.length) }
    rows.foldl (fun (p : GsAt) (n, r) =>
      let (s, ue) := p.s.gsCopy f t rt { sx := gsTX0 d, sy := r, dx := gsRX0 d, dy := gsRY0 d + n, nx := gsNX d, ny := 1 }
      { p with s := s, ue := p.ue.orElse fun _ => ue }) { s := s }
  else match gsOp d with
    | 0 => rows.foldl (fun (p : GsAt) (n, r) =>
      let (s, ue) := p.s.gsCopy f rt t { sx := gsRX0 d, sy := gsRY0 d + n, dx := gsTX0 d, dy := r, nx := gsNX d, ny := 1 }
      { p with s := s, ue := p.ue.orElse fun _ => ue }) { s := s }
    | 1 => dist.foldl (fun (p : GsAt) r =>
      let (s, ue) := p.s.gsAdd f e r ((rows.filter fun x => x.2 = r).map (·.1))
      { p with s := s, ue := p.ue.orElse fun _ => ue }) { s := s }
    | _ => rows.foldl (fun (p : GsAt) (n, r) =>
      let ue := p.s.ueRuns (rt.runs false (planeWin (gsRX0 d) (gsRY0 d + n) (gsNX d) 1 0 0))
      let (s, refused) := (p.s.correctRuns (rt.runs false (planeWin (gsRX0 d) (gsRY0 d + n) (gsNX d) 1 0 0))).gsW96 f e r n
      let s := if ue.isSome then { s with free := s.free + 1 } else s
      { s := s, ue := p.ue.orElse fun _ => ue, st := if refused then Status.bounds.code else p.st }) { s := s }

/-- The windows from the w-th on; an index outside a STRICT table ends the descriptor with BOUNDS (R311). The Bool
says so. -/
def State.gsWindows : Nat → State → Nat → Issued → Nat → GsAt × Bool
  | 0, s, _, _, _ => ({ s := s }, false)
  | m + 1, s, f, e, w =>
    let d := e.words
    let t := e.sub 0
    let ns := rangeFrom (256 * w) (min (256 * w + 255) (gsNIdx d - 1))
    let h := (t.dim 1 : Int)
    let it := e.sub 1
    let ix := gsIX0 d + (256 * w : Nat)
    let runs := it.runs false (planeWin ix (gsIY0 d) ns.length 1 0 0)
    let iue := s.ueRuns runs
    let s := (s.correctRuns runs).countClamp f (it.outsideCount ix (gsIY0 d) ns.length 1) 0
    let idx := ns.map fun n => (n, s.gsIndex e n)
    let s := if iue.isSome then { s with free := s.free + 1 } else s
    let bad := idx.filter fun x => x.2 < 0 || h ≤ x.2
    if t.strict && !bad.isEmpty then ({ s := s, ue := iue, st := Status.bounds.code }, true)
    else
      let s := s.foldRegs f fun r => { r with strIdx := bumpFld r.strIdx 0 32 bad.length }
      let a := s.gsWindow f e (idx.map fun x => (x.1, t.clamp 1 x.2))
      let (b, stop) := State.gsWindows m a.s f e (w + 1)
      ({ s := b.s, ue := (iue.orElse fun _ => a.ue).orElse fun _ => b.ue, st := if a.st ≠ 0 then a.st else b.st }, stop)

/-- GATHER_SCATTER_COMPLETE. -/
def opGatherScatter (s : State) (f k : Nat) : State :=
  match s.ctx f k with
  | none => s
  | some c =>
    let d := c.d.words
    if !(s.fold f).clocked || (hdrType d ≠ 0x31 && hdrType d ≠ 0x32) then s
    else
      let (a, stop) := State.gsWindows (ceilDiv (gsNIdx d) 256) s f c.d 0
      let ue := a.ue
      let s := match ue with
        | some u => a.s.consumeUE (16 + f) u
        | none => a.s
      let st := if stop then Status.bounds.code else if ue.isSome then Status.uncorrectable.code else a.st
      let s := s.endStream f k st true
      if stop then { s with due := s.due ++ [Due.fault (16 + f) Status.bounds.code c.d.addr false] } else s

/-! ### Transforms (R316–R320) -/

def tfRnd (d : List W64) : Nat := fld (wd d 0) 13 2
def tfSat (d : List W64) : Bool := bit (wd d 0) 15
def tfPerm (d : List W64) (i : Nat) : Nat := fld (wd d 3) (2 * i) 2

def tfReserved (d : List W64) : Bool :=
  fld (wd d 0) 16 16 ≠ 0 || tfRnd d = 3 || fld (wd d 1) 48 16 ≠ 0 || fld (wd d 2) 48 16 ≠ 0
  || fld (wd d 3) 14 50 ≠ 0 || wd d 4 ≠ 0 || wd d 5 ≠ 0 || wd d 6 ≠ 0 || wd d 7 ≠ 0
  || (!bit (wd d 0) 12 && fld (wd d 3) 8 6 ≠ 0)

/-- The source index of a destination index: dimension PERM_d takes i_d (R317). -/
def tfSource (d : List W64) (idx : List Nat) : List Nat :=
  (List.range 4).map fun k =>
    match (List.range 4).find? fun j => tfPerm d j = k with
    | some j => idx.getD j 0
    | none => idx.getD k 0

/-- The values of one line of the destination, at line `ln` along its axis and cross index `o`; an element under an
uncorrectable error is undefined. -/
def State.tfLine (s : State) (e : Issued) (z2 z3 o ln : Nat) : List Val :=
  let src := e.sub 0
  let dst := e.sub 1
  let ax := dst.axis
  let n := min 32 (dst.dim ax - 32 * ln)
  (List.range n).map fun p =>
    let q := 32 * ln + p
    let i := tfSource e.words (if ax = 1 then [o, q, z2, z3] else [q, o, z2, z3])
    let x := i.getD 0 0
    let y := i.getD 1 0
    if s.damagedAt src x y (i.getD 2 0) (i.getD 3 0) then
      f32 (Config.undefAcc 5000 s.free (src.lineAddr x y (i.getD 2 0) (i.getD 3 0) * 32 + p))
    else s.winVal src x y (i.getD 2 0) (i.getD 3 0)

/-- Write one line of converted values (R318). -/
def State.tfWrite (s : State) (f : Nat) (e : Issued) (z2 z3 o ln : Nat) (vs : List Val) : State :=
  let dst := e.sub 1
  let r : Rnd := if tfRnd e.words = 1 then .rtz else .rne
  let at_ := fun q => if dst.axis = 1 then (o, q) else (q, o)
  let (x, y) := at_ (32 * ln)
  if dst.format.isMX then
    let (sc, pats, _) := mxBlock dst.format (vs.map fun v => (v, r))
    s.writeLine (16 + f) dst (dst.lineAddr x y z2 z3) sc pats
  else
    (List.range vs.length).foldl (fun s p =>
      let (x, y) := at_ (32 * ln + p)
      s.writeElem (16 + f) dst x y z2 z3 (dst.format.narrow r (tfSat e.words) (vs.getD p .nan)).1) s

/-- TRANSFORM_COMPLETE: every source element is read before any is written (R319, R320). -/
def opTransform (s : State) (f k : Nat) : State :=
  match s.ctx f k with
  | none => s
  | some c =>
    if !(s.fold f).clocked || hdrType c.d.words ≠ 0x38 then s
    else
      let e := c.d
      let dst := e.sub 1
      let ax := dst.axis
      let keys := (List.range (dst.dim 3)).flatMap fun z3 => (List.range (dst.dim 2)).flatMap fun z2 =>
        (List.range (dst.dim (1 - ax))).flatMap fun o => (List.range (ceilDiv (dst.dim ax) 32)).map fun ln =>
          (z2, z3, o, ln)
      let ue := s.ueRuns ((e.sub 0).runs false (e.sub 0).whole)
      let s := s.correctRuns ((e.sub 0).runs false (e.sub 0).whole)
      let lines := keys.map fun (z2, z3, o, ln) => (z2, z3, o, ln, s.tfLine e z2 z3 o ln)
      let s := lines.foldl (fun s (z2, z3, o, ln, vs) => s.tfWrite f e z2 z3 o ln vs) s
      let s := match ue with
        | some u => { s with free := s.free + 1 }.consumeUE (16 + f) u
        | none => s
      s.endStream f k (if ue.isSome then Status.uncorrectable.code else 0) true

end Sys2Proof.Machine
end

