-- ==== Sys2Proof/Machine/Checks.lean ====
section
/-!
DEFINITION. Sys2Proof/Machine/Checks.lean: what a descriptor that names tensors checks of them (R44, R45, R86, R96):
format roles, blocks read through a pointer, and the pages a requester may use.
-/
namespace Sys2Proof.Machine

/-! ### Format roles (R44) -/

def Fmt.isPair : Fmt → Bool
  | .pair => true
  | _ => false

def Fmt.isCb4 : Fmt → Bool
  | .cb4 => true
  | _ => false

/-- The role of the base dies, but for reductions. -/
def Fmt.baseRole : Fmt → Bool
  | .cb4 | .pair | .w96 => false
  | _ => true

/-- A matrix operand; `act`: on the activation side. -/
def Fmt.matrixRole (act : Bool) : Fmt → Bool
  | .int32 | .cb4 | .pair | .w96 => false
  | .uint8 => act
  | _ => true

/-- The vector engine: computed in, converted or decoded. -/
def Fmt.vecRole : Fmt → Bool
  | .w96 => false
  | _ => true

/-- What a chain writes: CB4 is read by codebook decode only. -/
def Fmt.vecOutRole (g : Fmt) : Bool := g.vecRole && !g.isCb4

/-- A stream, gather or scatter moves what memory stores outside a base die's windows: R44's column "Stored in memory".
R44 names no column for them; the model takes that one for the table and row tensors of gathers and scatters too (log entry
85, DESIGN CHOICE). -/
def Fmt.storeRole : Fmt → Bool
  | .w96 => false
  | _ => true

/-! ### Blocks read through a pointer (R6, R86) -/

/-- The device group of the loaded job, as a shard specification sees it. -/
def State.groupView (s : State) (g : Nat) : Option GroupView :=
  match s.job with
  | some j => (j.groups[g]?).map fun r => ⟨r.length, r.findIdx? (· = fld (wd j.hdr 4) 0 16)⟩
  | none => none

/-- The eight words of a block, as an agent reads it. -/
def State.blockWords (s : State) (a : Nat) : List W64 := leWords 8 (s.moveBytes a 64)

/-- A block named by a pointer: off a 64-byte boundary it is refused with ALIGN, then as R40 and R259 give (log entry
47). -/
def State.ptrStatus (s : State) (who a : Nat) : Status :=
  if a % 64 ≠ 0 then .align else s.accStatus who .read a 64

def State.ptrBlock (s : State) (who a : Nat) : Status × List W64 := (s.ptrStatus who a, s.blockWords a)

/-- Step 6 of R96 for a requester. -/
def State.region (s : State) (who : Nat) (dest : Bool) (r : Nat × Nat) : Status :=
  s.accStatus who (if dest then .write else .read) r.1 r.2

/-- A tensor descriptor named by a pointer, checked whole (R96). -/
def State.tensorStatus (s : State) (who ptr : Nat) (u : TensorUse) : Status :=
  (s.ptrStatus who ptr).andThen fun _ =>
    tensorCheck (s.blockWords ptr) u (s.region who u.dest) s.groupView (s.ptrBlock who)

/-- The checks of R9 on a tensor descriptor named by a pointer: an earlier step inspects its fields only when they pass
(R96). -/
def State.tensorReadable (s : State) (who ptr : Nat) : Bool :=
  s.ptrStatus who ptr = .ok &&
    commonChecks (s.blockWords ptr) [1] (TDesc.reservedBad (s.blockWords ptr)) = .ok

/-- A block as the engine keeps it when it accepts a descriptor (R86): a sharded tensor's with what its shard specification
says of the global edge. -/
def State.capture (s : State) (a : Nat) : List W64 :=
  let b := s.blockWords a
  let t := TDesc.ofWords b
  if hdrType b = 1 && t.sharded then b ++ shardEdges t s.groupView (s.blockWords t.shardPtr) else b

/-- The tensor descriptor at a pointer. -/
def State.tensorAt (s : State) (ptr : Nat) : TDesc := TDesc.ofWords (s.blockWords ptr)

end Sys2Proof.Machine
end

