-- ==== Sys2Proof/WellFormed.lean ====
section
/-!
DEFINITION. Sys2Proof/WellFormed.lean: which commands can reach the block at all. A command outside this predicate
names an event that no agent of the spec can bring about: an instruction word under another instruction's opcode
(R212, R214; a word of no opcode of R214 comes as ALU), a handshake that is not eight words (R340), a frame number wider than its field (R336), a packet whose
body is not its LEN (R343), a requester whose number R13 does not list, a read past a slot's end (R498). `exec` is total all the same (log entry 9).
-/
namespace Sys2Proof

/-- Bits 31:26 of an instruction word: OP (R212). -/
def opOf (w : W32) : Nat := w.toNat >>> 26

/-- The opcodes of R214. -/
def listedOp (op : Nat) : Bool :=
  (1 ≤ op && op ≤ 8) || (0x0A ≤ op && op ≤ 0x0C) || (0x10 ≤ op && op ≤ 0x16) || (0x18 ≤ op && op ≤ 0x1C)
  || (0x20 ≤ op && op ≤ 0x22) || (0x28 ≤ op && op ≤ 0x2A) || (0x30 ≤ op && op ≤ 0x34)
  || (0x38 ≤ op && op ≤ 0x3A)

/-- A fence's word: SEL in its low 12 bits, no other fence's (R214). -/
def fenceOk (w : W32) (sel : Nat) : Bool := opOf w = 0x38 && (w.toNat % 4096 = sel || 3 ≤ w.toNat % 4096)

/-- A packet whose body has the 64-byte units that its LEN field, bits 15:6 of word 0, gives (R343). -/
def Packet.sized (p : Packet) : Bool := p.body.length = 64 * (p.w0.toNat / 64 % 1024)

/-- The units that a scrub names, by number, lie below 2^42. -/
def unitsOk (us : List UnitErr) : Bool := us.all (·.unit < 2 ^ 42)

def FoldErr.ok : FoldErr → Bool
  | .word u _ => u < 2 ^ 42
  | .line k _ => k ≤ 16

/-- A flash slot of the right shape: a header of eight words, eight words per entry (R647, R648). -/
def FlashSlot.wf (f : FlashSlot) : Bool :=
  f.hdr.length = 8 && f.entries.all (·.length = 8) && f.entries.length = f.compsOk.length

/-- A JTAG request carries the whole block buffer (R589). -/
def jtagOk : Option JtagReq → Bool
  | some r => r.buf.length = 4096
  | none => true

/-- The requester that a command names, where it names one. -/
def Instr.who : Instr → Option Nat
  | .slotClr who _ _ | .codebookLoad who _ _ _ | .portReset who _ _ | .portDisable who _ _ | .registerWrite who _ _
  | .mbxDataWrite who _ _ | .mbxTake who _ | .mbxStsRead who _ | .crookRead who _ | .crookWrite who _ _
  | .pwrCapWrite who _ | .flashWrite who _ | .traceEnable who _ _ | .flush who _ _ | .rearm who _ _
  | .trigNow who _ _ | .headcountTake who _ | .fldPmcWrite who _ _ _ | .fldThrFaultClear who _ _ _
  | .stkUeLogClear who _ _ | .resFaultClear who _ | .fldClampCntRead who _ | .mxaGateCntRead who _
  | .mxaSpecCntRead who _ | .vecCntRead who _ _ | .vecRowstsRead who _ _ | .fldIssueErrRead who _
  | .fldMemErrRead who _ | .stkEccCntRead who _ | .strErrRead who _ | .strDropRead who _ | .strWatchRead who _
  | .strIdxRead who _ | .stkWatchRead who _ | .drvLinkCntRead who _ | .drvRxErrRead who _ | .drvRxCntRead who _
  | .colCntRead who | .colDupRead who | .resCntRead who | .hstCmdErrRead who | .hstCntRead who
  | .hstNarrowCntRead who | .hstBoundsCntRead who | .pwrSupplyRead who | .pwrThermRead who | .pwrRegRead who
  | .pwrCntRead who | .dbgTrcStsRead who _ => some who
  | _ => none

/-- The operands of a command, its requester apart. -/
def Instr.operandsOk : Instr → Bool
  | .alu _ w => opOf w = 0x01 || !listedOp (opOf w)
  | .addi _ w => opOf w = 0x02
  | .andi _ w => opOf w = 0x03
  | .ori _ w => opOf w = 0x04
  | .xori _ w => opOf w = 0x05
  | .shi _ w => opOf w = 0x06
  | .lui _ w => opOf w = 0x07
  | .ldpc _ w => opOf w = 0x08
  | .cmp _ w => opOf w = 0x0A
  | .cmpi _ w => opOf w = 0x0B
  | .pred _ w => opOf w = 0x0C
  | .ldz _ w => 0x10 ≤ opOf w && opOf w ≤ 0x13
  | .lds _ w => 0x14 ≤ opOf w && opOf w ≤ 0x16
  | .sto _ w => 0x18 ≤ opOf w && opOf w ≤ 0x1B
  | .amo _ w => opOf w = 0x1C
  | .br _ w => opOf w = 0x20
  | .call _ w => opOf w = 0x21
  | .jr _ w => opOf w = 0x22
  | .spawn _ w => opOf w = 0x28
  | .halt _ w => opOf w = 0x29
  | .yield _ w => opOf w = 0x2A
  | .issue _ w => opOf w = 0x30
  | .evwait _ w => opOf w = 0x31
  | .evsig _ w => opOf w = 0x32
  | .evsigr _ w => opOf w = 0x33
  | .evcnt _ w => opOf w = 0x34
  | .fenceF _ w => fenceOk w 0
  | .fenceD _ w => fenceOk w 1
  | .fenceI _ w => fenceOk w 2
  | .mfs _ w => opOf w = 0x39
  | .mark _ w => opOf w = 0x3A
  | .stackScrub _ met late => unitsOk met && unitsOk late
  | .foldScrub _ met late => unitsOk met && late.all (·.ok)
  | .frameReceive _ fseq ack _ _ _ _ pkts => fseq < 65536 && ack < 65536 && pkts.all (·.sized)
  | .linkHandshake _ ws => ws.length = 8
  | .imageVerified a b _ => a.wf && b.wf
  | .resultSlotRead _ w len => len % 8 = 0 && w.val * 8 + len ≤ 64
  | .bar2Write off bytes => off % 4 = 0 && bytes.length % 4 = 0 && bytes.length ≤ 4096
  | .bar2Read _ len => len ≤ 4096
  | .i3cPrivateWrite bytes => bytes.length ≤ 256
  | .i3cPrivateRead len => len ≤ 256
  | .attest n => n.length = 32
  | .nonce r => jtagOk r
  | .unlock r _ _ => jtagOk r
  | .lock r => jtagOk r
  | .debugNs r => jtagOk r
  | .svnCommit r => jtagOk r
  | .rma r _ _ => jtagOk r
  | .revoke r _ _ => jtagOk r
  | .watchNotify _ _ units => 0 < units
  | _ => true

/-- Well-formed commands: no agent has a number that R13 does not list. -/
def Instr.wf (i : Instr) : Bool := i.who.all Machine.agentNo && i.operandsOk

end Sys2Proof
end

