-- ==== Sys2Proof/Machine/Operands.lean ====
section
/-!
DEFINITION. Sys2Proof/Machine/Operands.lean: the fields of an instruction word (R212), which words R218 makes a fault,
and the guard (R213).
-/
namespace Sys2Proof.Machine

def iPG (w : W32) : Nat := fld w 22 4
def iRd (w : W32) : Nat := fld w 17 5
def iRa (w : W32) : Nat := fld w 12 5
def iRb (w : W32) : Nat := fld w 7 5
/-- fn of the R format. -/
def iFn (w : W32) : Nat := fld w 0 7
def iImm12 (w : W32) : Nat := fld w 0 12
def iImm17 (w : W32) : Nat := fld w 0 17
def iOff22 (w : W32) : Nat := fld w 0 22
/-- The C and P formats. -/
def iPd (w : W32) : Nat := fld w 19 3
def iCc (w : W32) : Nat := fld w 15 4
def iCRa (w : W32) : Nat := fld w 10 5
def iCRb (w : W32) : Nat := fld w 5 5
def iImm10 (w : W32) : Nat := fld w 0 10
def iPa (w : W32) : Nat := fld w 16 3
def iPb (w : W32) : Nat := fld w 13 3
def iPFn (w : W32) : Nat := fld w 10 3
/-- The E format. -/
def iTgt (w : W32) : Nat := fld w 10 2
def iNB (w : W32) : Bool := bit w 9
def iG (w : W32) : Bool := bit w 8
def iGslot (w : W32) : Nat := fld w 0 6
/-- The V format. -/
def iSlot (w : W32) : Nat := fld w 6 6
def iN (w : W32) : Nat := fld w 0 6
/-- The M format. -/
def iSel (w : W32) : Nat := fld w 0 12

/-- An integer as a 64-bit word. -/
def w64 (i : Int) : W64 := BitVec.ofInt 64 i

/-- The opcodes of R214. -/
def knownOp (op : Nat) : Bool := listedOp op

/-- The ALU functions of R215. -/
def knownFn (fn : Nat) : Bool :=
  fn ≤ 5 || (0x08 ≤ fn && fn ≤ 0x0B) || (0x10 ≤ fn && fn ≤ 0x12) || (0x18 ≤ fn && fn ≤ 0x1B)
  || fn = 0x20 || fn = 0x21

/-- The special registers of R217. -/
def knownSel (sel : Nat) : Bool := sel ≤ 4 || sel = 0x10 || sel = 0x11 || sel = 0x20

/-- The guard predicate of an instruction (R213). -/
def guardHolds (v : Thread) (w : W32) : Bool := v.pred (iPG w % 8) != (iPG w / 8 = 1)

/-- The L1I serves the fetch of the instruction at a thread's PC. -/
def State.fetched (s : State) (t : Tid) : Bool :=
  let x := s.core t.fold.val t.core.val
  let pc := (s.thread t.fold.val t.core.val t.thr.val).pc.toNat
  decide (pc % 4 = 0) && x.l1i.contains (pc / 64 * 64) && !x.l1iBad.contains (pc / 64 * 64)

/-- A fetch that the L1I does not serve (R210, R268): a fault where no fetch may go (R231, R236, R259), else the thread gives
up the core until the line returns. -/
def State.fetchMiss (s : State) (t : Tid) : State :=
  let f := t.fold.val
  let c := t.core.val
  let a := (s.thread f c t.thr.val).pc.toNat
  let line := a / 64 * 64
  let st := if a % 4 ≠ 0 then Status.align else s.accStatus (coreAgent f c) .fetch a 4
  if st ≠ .ok then s.threadFault f c t.thr.val st a
  else
    let s := if (s.core f c).l1iBad.contains line then
        (s.updCore f c fun x => { x with l1i := x.l1i.filter (· ≠ line), l1iBad := x.l1iBad.filter (· ≠ line) }).foldRegs f
          fun r => { r with memErr := bumpFld r.memErr 0 16 1 }
      else s
    (s.pmc f 0x43 1).giveUp f c t.thr.val 1 .waitMem .fetch

/-- What every instruction of a thread does (R206, R213, R218): only the RUNNING thread of a core whose clock runs
issues, once the L1I serves its fetch (R210); a word that R218 makes a fault faults whatever the guard; a false guard only
moves the PC. -/
def issueInstr (s : State) (t : Tid) (w : W32) (bad : Bool) (body : State → State) : State :=
  let f := t.fold.val
  let c := t.core.val
  let th := t.thr.val
  if (s.thread f c th).st ≠ .running || !(s.fold f).clocked then s
  else if !s.fetched t then s.fetchMiss t
  else
    let s := (s.updCore f c fun x => { x with last := th }).pmc f 0x40 1
    if !knownOp (opOf w) || bad then s.threadFault f c th .unsupported 0
    else if guardHolds (s.thread f c th) w then body s
    else s.setThread f c th { s.thread f c th with pc := (s.thread f c th).pc + 4 }

/-- Move to the next instruction. -/
def State.nextPc (s : State) (t : Tid) : State :=
  let v := s.thread t.fold.val t.core.val t.thr.val
  s.setThread t.fold.val t.core.val t.thr.val { v with pc := v.pc + 4 }

/-- Write rd and move on. -/
def State.finish (s : State) (t : Tid) (rd : Nat) (x : W64) : State :=
  (s.putReg t.fold.val t.core.val t.thr.val rd x).nextPc t

def State.th (s : State) (t : Tid) : Thread := s.thread t.fold.val t.core.val t.thr.val
def State.rg (s : State) (t : Tid) (i : Nat) : W64 := (s.th t).reg i

end Sys2Proof.Machine
end

