-- ==== Sys2Proof/Machine/Flags.lean ====
section
/-!
DEFINITION. Sys2Proof/Machine/Flags.lean: the computations that set predicates (R214, R216) and the ALU functions
(R215).
-/
namespace Sys2Proof.Machine

/-- The condition cc of two operands (R216). -/
def condition (cc : Nat) (a b : W64) : Bool :=
  match cc with
  | 0x0 => a = b
  | 0x1 => a ≠ b
  | 0x2 => a.slt b
  | 0x3 => a.sle b
  | 0x4 => b.slt a
  | 0x5 => b.sle a
  | 0x6 => a.ult b
  | 0x7 => a.ule b
  | 0x8 => b.ult a
  | 0x9 => b.ule a
  | 0xA => a &&& b ≠ 0
  | _ => a &&& b = 0

/-- The function fn of PRED (R214). -/
def predFn (fn : Nat) (a b : Bool) : Bool :=
  match fn with
  | 0 => a && b
  | 1 => a || b
  | 2 => a != b
  | _ => a && !b

/-- Leading zeros of a 64-bit word. -/
def clz (a : W64) : Nat := if a = 0 then 64 else 63 - Nat.log2 a.toNat

/-- Set bits of a 64-bit word. -/
def popc (a : W64) : Nat := (List.range 64).foldl (fun n i => n + b2n (bit a i)) 0

/-- A shift or rotation by 0–63: kind 0 SHL, 1 SHR, 2 SAR, 3 ROR. -/
def shiftOp (kind : Nat) (a : W64) (n : Nat) : W64 :=
  match kind with
  | 0 => a <<< n
  | 1 => a >>> n
  | 2 => a.sshiftRight n
  | _ => a.rotateRight n

/-- The ALU functions (R215). -/
def aluOp (fn : Nat) (a b : W64) : W64 :=
  let n := b.toNat % 64
  match fn with
  | 0x00 => a + b
  | 0x01 => a - b
  | 0x02 => a &&& b
  | 0x03 => a ||| b
  | 0x04 => a ^^^ b
  | 0x05 => a &&& ~~~b
  | 0x08 => shiftOp 0 a n
  | 0x09 => shiftOp 1 a n
  | 0x0A => shiftOp 2 a n
  | 0x0B => shiftOp 3 a n
  | 0x10 => a * b
  | 0x11 => BitVec.ofNat 64 ((a.toNat * b.toNat) >>> 64)
  | 0x12 => BitVec.ofInt 64 ((a.toInt * b.toInt) / 2 ^ 64)
  | 0x18 => if a.slt b then a else b
  | 0x19 => if a.slt b then b else a
  | 0x1A => if a.ult b then a else b
  | 0x1B => if a.ult b then b else a
  | 0x20 => BitVec.ofNat 64 (clz a)
  | _ => BitVec.ofNat 64 (popc a)

/-- The functions of an AMO (R214): 0 SWAP, 1 ADD, 2 AND, 3 OR, 4 XOR, 5 MAXS, 6 MINS, 7 MAXU, 8 MINU, 9 CAS. -/
def amoOp (fn : Nat) (old val cmp : W64) : W64 :=
  match fn with
  | 0 => val
  | 1 => old + val
  | 2 => old &&& val
  | 3 => old ||| val
  | 4 => old ^^^ val
  | 5 => if old.slt val then val else old
  | 6 => if old.slt val then old else val
  | 7 => if old.ult val then val else old
  | 8 => if old.ult val then old else val
  | _ => if old = cmp then val else old

end Sys2Proof.Machine
end

