-- ==== Sys2Proof/Machine/CoreInstr.lean ====
section
/-!
DEFINITION. Sys2Proof/Machine/CoreInstr.lean: the operations behind the control-core instructions: loads, stores,
AMOs, the store buffer, fences, waits and signals (chapters 07 and 08).
-/
namespace Sys2Proof.Machine

def Tid.agent (t : Tid) : Nat := coreAgent t.fold.val t.core.val

/-! ### Register and predicate results -/

def opAlu (s : State) (t : Tid) (w : W32) : State :=
  s.finish t (iRd w) (aluOp (iFn w) (s.rg t (iRa w)) (s.rg t (iRb w)))

def opImm (s : State) (t : Tid) (w : W32) (g : W64 → W64) : State := s.finish t (iRd w) (g (s.rg t (iRa w)))

def opPred (s : State) (t : Tid) (pd : Nat) (b : Bool) : State :=
  (s.setThread t.fold.val t.core.val t.thr.val ((s.th t).setPred pd b)).nextPc t

/-- Move the PC to a target: a taken branch or jump (R239). -/
def opJump (s : State) (t : Tid) (target : BitVec 48) : State :=
  let s := s.setThread t.fold.val t.core.val t.thr.val { s.th t with pc := target }
  s.coreRec t.fold.val t.core.val t.thr.val 8 0x10 [put 0 48 target.toNat]

/-- The target of BR and CALL. -/
def branchTarget (pc : BitVec 48) (w : W32) : BitVec 48 := pc + BitVec.ofInt 48 (4 * sext 22 (iOff22 w))

/-- The address after the instruction, as CALL and JR save it. -/
def linkAddr (pc : BitVec 48) : W64 := BitVec.ofNat 64 (pc + 4).toNat

/-! ### The store buffer (R210, R232) and the caches (R261–R265) -/

/-- A store reaches its home: fold-store lines are invalidated, the core's and the fold's lines of stack memory are
updated (R261, R262); a store to a page with NC = 1 updates no cache (R264). -/
def State.performStore (s : State) (f c : Nat) (e : SbEntry) : State :=
  let bs := leBytes e.size e.val.toNat
  let s := s.write (coreAgent f c) e.addr bs
  match place e.addr with
  | .inter _ =>
    if s.uncached e.addr then s
    else
      let upd := fun (l : CLine) =>
        if l.addr ≤ e.addr && e.addr < l.addr + 64 then
          { l with data := l.data.take (e.addr - l.addr) ++ bs ++ l.data.drop (e.addr - l.addr + e.size) }
        else l
      let s := s.updCore f c fun x => { x with l1d := x.l1d.map upd }
      s.updFold f fun v => { v with fc := v.fc.map upd }
  | _ => s

/-- Perform every buffered store of a core, oldest first. -/
def State.drain (s : State) (f c : Nat) : State :=
  let sb := (s.core f c).sb
  if sb.isEmpty then s
  else sb.foldl (fun s e => s.performStore f c e) (s.updCore f c fun x => { x with sb := [] })

/-- Own buffered stores laid over bytes that were read (R232). -/
def overlay (sb : List SbEntry) (a : Nat) (bs : List Byte) : List Byte :=
  sb.foldl (fun bs e =>
    (List.range bs.length).map fun i =>
      if e.addr ≤ a + i ∧ a + i < e.addr + e.size then
        (leBytes e.size e.val.toNat).getD (a + i - e.addr) 0
      else bs.getD i 0) bs

/-- The value a load writes to rd. -/
def extend (signed : Bool) (bs : List Byte) : W64 :=
  if signed then w64 (sext (8 * bs.length) (leNat bs)) else BitVec.ofNat 64 (leNat bs)

/-- Whether an L1D may hold a line of an address (R245, R264, R265). -/
def State.cacheable (s : State) (f a : Nat) : Bool :=
  match place a with
  | .store g _ => g = f
  | .inter _ => !s.uncached a
  | _ => false

/-- The L1D line that serves a load now (R261, R263). -/
def State.l1dHit (s : State) (f c a : Nat) : Option CLine :=
  let x := s.core f c
  if s.cacheable f a then
    x.l1d.find? fun l => l.addr = a / 64 * 64 && !l.bad &&
      match place a with
      | .inter _ => x.epoch ≤ l.epoch
      | _ => true
  else none

/-- A line of the L1D with a parity error is invalidated, counted and fetched again (R268). -/
def State.dropBad (s : State) (f c line : Nat) : State :=
  if (s.core f c).l1d.any fun l => l.addr = line && l.bad then
    (s.updCore f c fun x => { x with l1d := x.l1d.filter fun l => l.addr ≠ line }).foldRegs f
      fun r => { r with memErr := bumpFld r.memErr 0 16 1 }
  else s

/-- The checks of an access (R231, R236, R259): ALIGN, BOUNDS of the address, then the attributes. Register space is
reached by aligned 64-bit accesses only. -/
def State.accessFault (s : State) (t : Tid) (k : Acc) (a : W64) (size : Nat) : Status :=
  let n := a.toNat
  if n % size ≠ 0 then .align
  else if 2 ^ 48 ≤ n then .bounds
  else match place n with
    | .foldReg g _ => if size ≠ 8 || !(s.inService g) then .bounds else .ok
    | .dieReg .. | .hub .. => if size ≠ 8 then .bounds else .ok
    | _ => s.accStatus (Tid.agent t) k n size

/-- A load of `size` bytes (R210, R231). -/
def opLoad (s : State) (t : Tid) (a : W64) (size rd : Nat) (signed : Bool) : State :=
  let f := t.fold.val
  let c := t.core.val
  let st := s.accessFault t .read a size
  if st ≠ .ok then s.threadFault f c t.thr.val st a.toNat
  else if isRegSpace a.toNat then
    (s.nextPc t).giveUp f c t.thr.val 4 .waitMem (.regRead a.toNat rd)
  else
    match s.l1dHit f c a.toNat with
    | some l =>
      let bs := overlay (s.core f c).sb a.toNat ((l.data.drop (a.toNat - l.addr)).take size)
      s.finish t rd (extend signed bs)
    | none =>
      let s := s.dropBad f c (a.toNat / 64 * 64)
      ((s.nextPc t).pmc f 0x42 1).giveUp f c t.thr.val 0 .waitMem (.load a.toNat size rd signed)

/-- A store of `size` bytes (R210). -/
def opStore (s : State) (t : Tid) (a : W64) (size : Nat) (v : W64) : State :=
  let f := t.fold.val
  let c := t.core.val
  let st := s.accessFault t .write a size
  if st ≠ .ok then s.threadFault f c t.thr.val st a.toNat
  else if isRegSpace a.toNat then
    (s.nextPc t).giveUp f c t.thr.val 4 .waitMem (.regWrite a.toNat v)
  else if (s.core f c).sb.length < 16 then
    (s.updCore f c fun x => { x with sb := x.sb ++ [⟨t.thr.val, a.toNat, size, v⟩] }).nextPc t
  else (s.nextPc t).giveUp f c t.thr.val 2 .waitMem (.store a.toNat size v)

/-- An AMO gives up the core until its home answers (R210, R235). -/
def opAmo (s : State) (t : Tid) (w : W32) : State :=
  let f := t.fold.val
  let c := t.core.val
  let a := s.rg t (iRa w)
  let st := if isRegSpace a.toNat && a.toNat % 8 = 0 then .bounds
    else (s.accessFault t .read a 8).andThen fun _ => s.accessFault t .write a 8
  if st ≠ .ok then s.threadFault f c t.thr.val st a.toNat
  else (s.nextPc t).giveUp f c t.thr.val 3 .waitMem
    (.amo a.toNat (iFn w) (s.rg t (iRb w)) (s.rg t (iRd w)) (iRd w))

/-! ### Completions -/

/-- Forget displaced lines. -/
def dropLines (evict : List Nat) (ls : List CLine) : List CLine := ls.filter fun l => !(evict.contains l.addr)

/-- Room for a line in its set of a cache (R245): lines with their addresses, `sets` sets of `ways` lines. When the set is
full, the line that leaves is open (log entry 12). -/
def makeRoom {α : Type} (addr : α → Nat) (sets ways line : Nat) (ls : List α) : List α :=
  let same := fun (x : α) => addr x / 64 % max 1 sets = line / 64 % max 1 sets
  let ls := ls.filter fun x => addr x ≠ line
  let full := ls.filter same
  if full.length < ways then ls
  else match full[Config.victim line full.length % max 1 full.length]? with
    | some v => ls.filter fun x => addr x ≠ addr v
    | none => ls

/-- The sets and ways of an L1D (64 KiB, 4 ways), an L1I (32 KiB, 2 ways) and a fold cache (8 ways) (R245). -/
def fillL1D (ls : List CLine) (l : CLine) : List CLine := makeRoom CLine.addr 256 4 l.addr ls ++ [l]
def fillL1I (ls : List Nat) (line : Nat) : List Nat := makeRoom id 256 2 line ls ++ [line]
def fillFc (size : Nat) (ls : List CLine) (l : CLine) : List CLine := makeRoom CLine.addr (512 * size) 8 l.addr ls ++ [l]

/-- The fold cache serves a miss of stack memory: the line's bytes and the fold with the line filled (R250, R263). A line
with an uncorrectable error is invalidated, counted and fetched again (R268). -/
def State.fcFetch (s : State) (f c line : Nat) : List Byte × State :=
  let v := s.fold f
  if v.fcSize = 0 then (s.readBytes line 64, s.corrected line 64)
  else match v.fc.find? fun l => l.addr = line && !l.bad && (s.core f c).epoch ≤ l.epoch with
    | some l => (l.data, s)
    | none =>
      let bs := s.readBytes line 64
      let bad := v.fc.any fun l => l.addr = line && l.bad
      (bs, (s.setFold f { v with
        fc := fillFc v.fcSize v.fc { addr := line, epoch := v.epoch, data := bs },
        regs := if bad then { v.regs with memErr := bumpFld v.regs.memErr 16 16 1 } else v.regs }).corrected line 64)

/-- The fold cache holds a good line that serves a core. -/
def State.fcHit (s : State) (f c line : Nat) : Bool :=
  (s.fold f).fc.any fun l => l.addr = line && !l.bad && (s.core f c).epoch ≤ l.epoch

/-- An uncorrectable unit under a control core's access: the step is tainted and the thread faults (R238, R269). -/
def State.threadUE (s : State) (t : Tid) (a unit : Nat) : State :=
  let s := s.logUE (Tid.agent t) unit 0
  { s with res := { s.res with tainted := true } }.threadFault t.fold.val t.core.val t.thr.val .uncorrectable a

/-- An access that waits: this fold, or the fold that the address belongs to, is in Graze (R18). -/
def State.asleep (s : State) (f a : Nat) : Bool :=
  (s.fold f).island.graze || match place a with
    | .store g _ => (s.fold g).island.graze
    | .foldReg g _ => (s.fold g).island.graze
    | _ => false

/-- A line of a fold's caches takes a parity error: 0–7 the L1D of a core, 8–15 its L1I, 16 the fold cache. -/
def State.parity (s : State) (f k line : Nat) : State :=
  let mark := fun (ls : List CLine) => ls.map fun l => if l.addr = line then { l with bad := true } else l
  if k < 8 then s.updCore f k fun v => { v with l1d := mark v.l1d }
  else if k < 16 then s.updCore f (k - 8) fun v =>
    if v.l1i.contains line then { v with l1iBad := insNat v.l1iBad line } else v
  else s.updFold f fun v => { v with fc := mark v.fc }

/-- The errors that a returning read of an address is the first to meet: one of the fold cache's copy of its line, and one at
its home that can be corrected (R267, R268; log entry 91). -/
def State.meet (s : State) (f a : Nat) (refetch corrected : Bool) : State :=
  let s := if refetch then s.parity f 16 (a / 64 * 64) else s
  if corrected && !s.badAt a then s.putErr ⟨errKey a, true, false⟩ else s

/-- The data of a load returns (R245, R262, R263). -/
def opLoadReturn (s : State) (t : Tid) (evict : List Nat) (refetch corrected : Bool) : State :=
  let f := t.fold.val
  let c := t.core.val
  match (s.th t).wait with
  | .load a size rd signed =>
    if s.asleep f a then s else
    let line := a / 64 * 64
    let s := (s.updFold f fun v => { v with fc := dropLines evict v.fc }).meet f a refetch corrected
    let s := s.updCore f c fun x => { x with l1d := dropLines evict x.l1d }
    let cached := match place a with
      | .inter _ => !s.uncached a && s.fcHit f c line
      | _ => false
    match (if cached then none else s.ueIn line 64) with
    | some u => s.threadUE t a u
    | none =>
      let (bs, s) := if (match place a with | .inter _ => !s.uncached a | _ => false)
        then s.fcFetch f c line else (s.readBytes line 64, s.corrected line 64)
      let s := if s.cacheable f a then
          s.updCore f c fun x => { x with
            l1d := fillL1D x.l1d { addr := line, epoch := (s.fold f).epoch, data := bs } }
        else s
      let v := overlay (s.core f c).sb a ((bs.drop (a - line)).take size)
      (s.putReg f c t.thr.val rd (extend signed v)).wake f c t.thr.val
  | _ => s

/-- The line of an instruction fetch returns, and the thread that waits for it is READY again (R210, R250). -/
def opFetchReturn (s : State) (t : Tid) (evict : List Nat) (refetch corrected : Bool) : State :=
  let f := t.fold.val
  let c := t.core.val
  let th := t.thr.val
  match (s.th t).wait with
  | .fetch =>
    let a := (s.th t).pc.toNat
    if s.asleep f a then s else
    let line := a / 64 * 64
    let inter := match place a with
      | .inter _ => !s.uncached a
      | _ => false
    let s := (s.updFold f fun v => { v with fc := dropLines evict v.fc }).meet f a refetch corrected
    match (if inter && s.fcHit f c line then none else s.ueIn line 64) with
    | some u => s.threadUE t a u
    | none =>
      let s := if inter then (s.fcFetch f c line).2 else s.corrected line 64
      let s := s.updCore f c fun x => { x with
        l1i := fillL1I (x.l1i.filter fun l => !(evict.contains l)) line, l1iBad := x.l1iBad.filter (· ≠ line) }
      s.wake f c th
  | _ => s

/-- The first thread of a core that waits to put a store into the buffer. -/
def Core.storeWaiter (x : Core) : Option Nat :=
  (List.range 8).find? fun t =>
    match (SMap.get ({} : Thread) x.threads t).wait with
    | .store .. => true
    | _ => false

/-- The oldest buffered store is performed and its entry freed; a store that waits for an entry takes it. -/
def opStoreFree (s : State) (f c : Nat) : State :=
  match (s.core f c).sb with
  | [] => s
  | e :: rest =>
    if s.asleep f e.addr then s else
    let s := (s.updCore f c fun x => { x with sb := rest }).performStore f c e
    match (s.core f c).storeWaiter with
    | some t =>
      match (s.thread f c t).wait with
      | .store a size v =>
        (s.updCore f c fun x => { x with sb := x.sb ++ [⟨t, a, size, v⟩] }).wake f c t
      | _ => s
    | none => s

/-- The result of an AMO returns from its home, after every earlier access (R235). -/
def opAmoReturn (s : State) (t : Tid) : State :=
  let f := t.fold.val
  let c := t.core.val
  match (s.th t).wait with
  | .amo a fn val cmp rd =>
    if s.asleep f a then s else
    let s := (s.drain f c).corrected a 8
    match s.ueIn a 8 with
    | some u => s.threadUE t a u
    | none =>
      let old := s.readWord a
      let s := s.write (Tid.agent t) a (leBytes 8 (amoOp fn old val cmp).toNat)
      let line := a / 64 * 64
      let s := s.updCore f c fun x => { x with l1d := x.l1d.filter (·.addr ≠ line) }
      let s := s.updFold f fun v => { v with fc := v.fc.filter (·.addr ≠ line) }
      (s.putReg f c t.thr.val rd old).wake f c t.thr.val
  | _ => s

/-! ### Fences (R233, R234, R263, R266) -/

/-- FENCE.D gives its core a new epoch of the fold's count. -/
def State.newEpoch (s : State) (f c : Nat) : State :=
  let s := s.updFold f fun v => { v with epoch := v.epoch + 1 }
  s.updCore f c fun x => { x with epoch := (s.fold f).epoch }

/-- An earlier store of the thread has not been performed. -/
def State.outstanding (s : State) (t : Tid) : Bool :=
  (s.core t.fold.val t.core.val).sb.any (·.thr = t.thr.val)

/-- FENCE.F (kind 0) and FENCE.D (kind 1). -/
def opFence (s : State) (t : Tid) (kind : Nat) : State :=
  let f := t.fold.val
  let c := t.core.val
  if s.outstanding t then (s.nextPc t).giveUp f c t.thr.val 7 .waitFence (.fence kind)
  else (if kind = 1 then s.newEpoch f c else s).nextPc t

/-- The condition of a fence holds: what was buffered has been performed. -/
def opFenceDone (s : State) (t : Tid) : State :=
  let f := t.fold.val
  let c := t.core.val
  match (s.th t).wait with
  | .fence kind =>
    if s.asleep f 0 || (s.core f c).sb.any fun e => s.asleep f e.addr then s else
    let s := s.drain f c
    (if kind = 1 then s.newEpoch f c else s).wake f c t.thr.val
  | _ => s

/-! ### Event slots (R225–R229) -/

/-- EVWAIT: satisfied at once when no one waits before it and COUNT is enough. -/
def opEvwait (s : State) (t : Tid) (w : W32) : State :=
  let f := t.fold.val
  let c := t.core.val
  let th := t.thr.val
  let n := iSlot w
  let e := s.slot f n
  let limit := (s.rg t (iRa w)).toNat
  if e.waiters.isEmpty && iN w ≤ e.count then
    let s := (s.setSlot f n { e with count := e.count - iN w }).evwaitRec f c th n (iN w) s.now .ok
    s.finish t (iRd w) 0
  else
    let s := s.await f n (.thread c th (iN w))
    (s.nextPc t).giveUp f c th 6 .waitEvent
      (.event n (iN w) (iRd w) s.now (if limit = 0 then none else some (s.now + limit)))

/-- A wait's timeout expires (R227): COUNT is unchanged. -/
def opEvwaitTimeout (s : State) (t : Tid) : State :=
  let f := t.fold.val
  let c := t.core.val
  let th := t.thr.val
  match (s.th t).wait with
  | .event n k rd since (some d) =>
    let s := { s with now := max s.now d }
    let s := (s.putReg f c th rd (BitVec.ofNat 64 Status.timeout.code)).evwaitRec f c th n k since .timeout
    (s.wake f c th).unwait f n (.thread c th k)
  | _ => s

/-- EVSIG: the addition, after an implicit FENCE.F (R226, R234). -/
def opEvsig (s : State) (t : Tid) (w : W32) : State :=
  let f := t.fold.val
  let c := t.core.val
  let s := (s.drain f c).finish t (iRd w) 0
  let s := s.coreRec f c t.thr.val 9 0x14 [put 0 6 (iSlot w) ||| put 6 6 (iN w)]
  s.evtApply f (iSlot w) (iN w)

/-- The result of EVSIGR (R229). -/
def State.evsigrStatus (s : State) (target : W64) : Status :=
  let route := fld target 12 4
  firstFail [
    (fld target 18 46 ≠ 0 || (route = 0 && fld target 16 2 ≠ 0), .reservedNonzero),
    (319 < fld target 0 12 || 6 < route, .bounds),
    (route ≠ 0 && !s.inSvc (route - 1), .linkDown)]

/-- EVSIGR: the addition or the SIGNAL packet, after an implicit FENCE.D. -/
def opEvsigr (s : State) (t : Tid) (w : W32) : State :=
  let f := t.fold.val
  let c := t.core.val
  let target := s.rg t (iRa w)
  let st := s.evsigrStatus target
  let s := ((s.drain f c).newEpoch f c).finish t (iRd w) (BitVec.ofNat 64 st.code)
  let s := s.coreRec f c t.thr.val 9 0x14
    [put 0 6 (iSlot w) ||| put 6 6 (iN w) ||| put 12 1 1 ||| put 32 32 target.toNat]
  if st ≠ .ok || iN w = 0 then s
  else
    let route := fld target 12 4
    if route = 0 then s.evtAddLogical (fld target 0 12) (iSlot w) (iN w)
    else s.send (route - 1) (mkSignal (fld target 16 2) (Tid.agent t) (iSlot w) (fld target 0 12) (iN w) 0)

/-! ### SPAWN, HALT, MFS, MARK -/

/-- SPAWN (R209, R214): thread fn[2:0] of core fn[5:3]. -/
def opSpawn (s : State) (t : Tid) (w : W32) : State :=
  let f := t.fold.val
  let c := t.core.val
  let n := iFn w % 8
  let k := iFn w / 8 % 8
  let st := firstFail [(c ≠ 0 && k ≠ c, .bounds), ((s.thread f k n).st ≠ .idle, .busy)]
  let pc : BitVec 48 := BitVec.ofNat 48 (s.rg t (iRa w)).toNat
  let g1 := s.rg t (iRb w)
  let s := s.finish t (iRd w) (BitVec.ofNat 64 st.code)
  if st = .ok then
    (s.setThread f k n (({ st := .ready, pc := pc } : Thread).setReg 1 g1)).sched f k
  else s

def opHalt (s : State) (t : Tid) : State :=
  let f := t.fold.val
  let c := t.core.val
  let s := s.nextPc t
  (s.setThread f c t.thr.val { s.th t with st := .idle }).sched f c

def opYield (s : State) (t : Tid) : State :=
  ((s.nextPc t).giveUp t.fold.val t.core.val t.thr.val 8 .ready .none).sched t.fold.val t.core.val

/-- The special registers (R217). -/
def State.special (s : State) (t : Tid) (sel : Nat) : W64 :=
  match sel with
  | 0x000 => BitVec.ofNat 64 t.thr.val
  | 0x001 => BitVec.ofNat 64 t.core.val
  | 0x002 => BitVec.ofNat 64 ((s.logicalOf t.fold.val).getD 0)
  | 0x003 => BitVec.ofNat 64 t.fold.val
  | 0x004 => BitVec.ofNat 64 (Tid.agent t)
  | 0x010 => BitVec.ofNat 64 s.now
  | 0x011 => BitVec.ofNat 64 (s.cyclesOf t.fold.val)
  | _ => s.res.regs.commitGlb

def opMark (s : State) (t : Tid) (w : W32) : State :=
  let f := t.fold.val
  let c := t.core.val
  let v := s.rg t (iRa w)
  let s := (s.nextPc t).coreRec f c t.thr.val 9 0x16
    [put 0 12 (iSel w), v, BitVec.ofNat 64 (s.cyclesOf f)]
  let d := foldDie f
  if fld (s.trc d).trig 8 12 = iSel w then s.fire d 0 (Tid.agent t) else s

/-! ### ISSUE (R219, R220) -/

/-- A queue of R219 has no room: matmul 16, chain 8, stream 32; the hub queue always has room, because its
descriptors take effect as they are accepted. -/
def State.queueFull (s : State) (f c tgt : Nat) : Bool :=
  match tgt with
  | 0 => 16 ≤ (s.fold f).matQ.length
  | 1 => 8 ≤ (s.core f c).chainQ.length
  | 2 => 32 ≤ (s.fold f).strQ.length
  | _ => false

/-- The trace record of an ISSUE (R239). -/
def State.issueRec (s : State) (t : Tid) (tgt : Nat) (st : Status) (ticket tag addr : Nat) : State :=
  s.coreRec t.fold.val t.core.val t.thr.val 9 0x12
    [put 0 2 tgt ||| put 8 8 st.code ||| put 32 32 ticket, put 0 32 tag, put 0 48 addr]

/-- The word ISSUE writes to rd (R219). -/
def issueResult (st : Status) (tgt ticket : Nat) : W64 :=
  put 0 8 st.code ||| put 8 2 tgt ||| (if st = .ok then put 32 32 ticket else 0)

/-- Put an ISSUE into the order of arrival: of those of one cycle, the lower core number first (R221). -/
def insArrival : List (Nat × Nat × Nat) → Nat × Nat × Nat → List (Nat × Nat × Nat)
  | [], x => [x]
  | y :: ys, x => if x.1 < y.1 || (x.1 = y.1 && x.2.1 < y.2.1) then x :: y :: ys else y :: insArrival ys x

/-- The queue an ISSUE of a thread waits for: its TGT, and for VEC its core's. -/
def State.issueQueue (s : State) (f c th : Nat) : Option (Nat × Nat) :=
  match (s.thread f c th).wait with
  | .issue _ efld _ =>
    let tgt := iTgt (BitVec.ofNat 32 efld)
    some (tgt, if tgt = 1 then c else 0)
  | _ => none

/-- No ISSUE that reached the same queue earlier still waits (R221). -/
def State.issueTurn (s : State) (f c th : Nat) : Bool :=
  ((s.fold f).arrived.takeWhile fun x => x.2 ≠ (c, th)).all fun x => s.issueQueue f x.2.1 x.2.2 ≠ s.issueQueue f c th

/-- ISSUE: an implicit FENCE.F, then the thread waits for the engine; with NB = 1 a full queue answers BUSY. -/
def opIssue (s : State) (t : Tid) (w : W32) : State :=
  let f := t.fold.val
  let c := t.core.val
  let a := s.rg t (iRa w)
  let s := s.drain f c
  if iNB w && s.queueFull f c (iTgt w) then
    let s := (s.finish t (iRd w) (issueResult .busy (iTgt w) 0)).issueRec t (iTgt w) .busy 0 0 (a.toNat % 2 ^ 48)
    (s.giveUp f c t.thr.val 5 .ready .none).sched f c
  else
    let me := (s.cyclesOf f, c, t.thr.val)
    let s := s.updFold f fun v => { v with arrived := insArrival (v.arrived.filter fun x => x.2 ≠ me.2) me }
    (s.nextPc t).giveUp f c t.thr.val 5 .waitIssue (.issue a.toNat (iImm12 w) (iRd w))

end Sys2Proof.Machine
end

