-- ==== Sys2Proof/Machine/HostBase.lean ====
section
/-!
DEFINITION. Sys2Proof/Machine/HostBase.lean: what other layers do to the host interface, the mailboxes and the power
block: host states and results (R495–R508), credits that follow the host state (R350), wake events (R555, R556), and
words put into mailboxes (R511–R517).
-/
namespace Sys2Proof.Machine

/-- A word of the loaded job's header (R650). -/
def State.jobWord (s : State) (i : Nat) : W64 :=
  match s.job with
  | some j => wd j.hdr i
  | none => 0

/-! ### Credits returned (R348, R350) -/

/-- Share of a channel in units (R347, R366). -/
def Port.share (x : Port) (vc : Nat) : Nat :=
  if vc = vcCTL then 256 else fld x.regs.vcCfg (14 * vc) 14

/-- Units a packet takes in the receive buffer; TIME and CREDIT take none. -/
def pktCost (k : Packet) : Nat := if k.ptype = ptTIME || k.ptype = ptCREDIT then 0 else 1 + k.len

def Port.held (x : Port) (vc : Nat) : Nat := (SMap.get [] x.rxq vc).foldl (fun n k => n + pktCost k) 0

/-- Whether a port advertises a channel now. -/
def State.advertises (s : State) (p vc : Nat) : Bool :=
  let x := s.port p
  if vc = vcCTL then x.st = .active || x.st = .held
  else x.st = .active && (vc = vcRES || s.running || x.role = 6)

/-- Units of a channel that a CREDIT packet may return now. -/
def State.owed (s : State) (p vc : Nat) : Nat :=
  let x := s.port p
  if s.advertises p vc then x.share vc - SMap.get 0 x.adv vc - x.held vc else 0

/-- Return what is owed on a port in one CREDIT packet. -/
def State.giveCredits (s : State) (p : Nat) : State :=
  let n := (List.range 4).map (s.owed p)
  if n.all (· = 0) then s
  else
    let w := (List.range 4).foldl (fun (w : W64) vc => w ||| put (16 * vc) 16 (n.getD vc 0)) 0
    let s := s.updPort p fun x => { x with
      adv := (List.range 4).foldl (fun m vc => SMap.upd 0 m vc (· + n.getD vc 0)) x.adv }
    s.send p (mkPacket ptCREDIT 0 0 0 (fld w 0 48) (fld w 48 16) 0 0 [])

def State.giveAll (s : State) : State := (List.range 6).foldl (fun s p => s.giveCredits p) s

/-! ### Commands and results (R492, R503–R505) -/

def Cmd.op (c : Cmd) : Nat := fld (wd c.words 1) 0 8
def Cmd.rslot (c : Cmd) : Nat := fld (wd c.words 1) 8 8
def Cmd.tag (c : Cmd) : Nat := fld (wd c.words 0) 32 32

/-- Transition commands (R497). -/
def transitionOps : List Nat := [0x02, 0x03, 0x04, 0x05, 0x06, 0x07, 0x0B, 0x0C]

/-- HST_STS.STATE codes (R495). -/
def HostSt.code : HostSt → Nat
  | .offline => 0
  | .configured => 1
  | .loaded => 2
  | .running => 3
  | .paused => 4
  | .recovering => 5
  | .faulted => 6

def State.hostCode (s : State) : Nat := s.host.st.code

def State.resWord (s : State) (slot i : Nat) : W64 := SMap.get 0 s.host.results (8 * slot + i)
def State.setRes (s : State) (slot i : Nat) (w : W64) : State :=
  { s with host := { s.host with results := SMap.set 0 s.host.results (8 * slot + i) w } }

/-- Assign a result slot (R504): the next SEQ, GEN, BUSY and NOT_READY. -/
def State.assignRes (s : State) (slot : Nat) : State :=
  let seq := (s.host.seq + 1) % 2 ^ 32
  let gen := (fld (s.resWord slot 0) 32 16 + 1) % 65536
  { s with host := { s.host with seq := seq } }.setRes slot 0
    (put 0 32 seq ||| put 32 16 gen ||| put 49 1 1 ||| put 56 8 Status.notReady.code)

/-- Make a result READY and raise vector 0 (R503, R505, R509). -/
def State.result (s : State) (c : Cmd) (st : Status) (ws : List W64) : State :=
  let k := c.rslot
  let s := s.setRes k 1 (put 0 8 c.op ||| put 8 3 s.hostCode ||| put 32 32 c.tag)
  let s := (List.range 6).foldl (fun s i => s.setRes k (2 + i) (wd ws i)) s
  let w := s.resWord k 0
  (s.setRes k 0 (setFld (setFld w 48 1 1) 56 8 st.code)).raise 0

/-- A command completes: it leaves the queue and its result is READY. -/
def State.complete (s : State) (c : Cmd) (st : Status) (ws : List W64) : State :=
  { s with host := { s.host with queue := s.host.queue.filter fun d => d.rslot ≠ c.rslot } }.result c st ws

/-- The accepted command of an OP, oldest first. -/
def State.cmdOf (s : State) (op : Nat) : Option Cmd := s.host.queue.find? fun c => c.op = op

def State.updCmd (s : State) (c : Cmd) (g : Cmd → Cmd) : State :=
  { s with host := { s.host with queue := s.host.queue.map fun d => if d.rslot = c.rslot then g d else d } }

/-! ### The host state (R495, R501, R502) -/

/-- The status an agent's fault left in RES_FAULT, as a code of R11. -/
def allStatus : List Status :=
  [.ok, .notReady, .align, .bounds, .overlap, .version, .reservedNonzero, .notInState, .deniedSecure, .busy,
   .noSpare, .timeout, .linkDown, .feedShared, .windowOverflow, .unsupported, .signature, .supplyLow, .drainStall,
   .uncorrectable]

def Status.ofCode (n : Nat) : Status := (allStatus.find? fun st => st.code = n).getD .ok

def State.faultStatus (s : State) : Status := Status.ofCode (fld s.res.regs.fault 16 8)

/-- Pending PAUSE and RESUME commands meet a new host state (R501). -/
def State.endPending (s : State) : State :=
  s.host.queue.foldl (fun s c =>
    if c.op = 0x05 && s.host.st ≠ .running then
      if s.host.st = .faulted then s.complete c s.faultStatus []
      else if s.host.st = .recovering then s.complete c .notInState []
      else s
    else if c.op = 0x06 && s.host.st = .faulted then s.complete c s.faultStatus []
    else s) s

/-- The host state changes. `byCmd`: the change of a command, which raises no vector 2. -/
def State.setHost (s : State) (st : HostSt) (byCmd : Bool) : State :=
  if s.host.st = st then s
  else
    let s := { s with host := { s.host with st := st } }
    let s := if byCmd then s else s.raise 2
    s.endPending.giveAll

/-! ### Wake events (R555, R556) -/

/-- The fold domain is in Rest or Deep. -/
def State.foldsDown (s : State) : Bool := s.pwr.state = 2 || s.pwr.state = 3

/-- A wake source raises an event: kept while the domain is down or on its way down (R554). -/
def State.raiseWake (s : State) (src : Nat) : State :=
  if (s.foldsDown || s.pwr.entering.isSome) && !(s.pwr.wakes.any fun w => w.1 = src) then
    { s with pwr := { s.pwr with wakes := s.pwr.wakes ++ [(src, s.now)] } }
  else s

/-! ### Mailboxes (R511–R517) -/

/-- Receivers and senders of the private channels 64–71 (R517). -/
def chanRcv : List Nat := [2, 3, 1, 1, 3, 2, 2, 3]
def chanSnd : List Nat := [1, 1, 2, 3, 2, 3, 4, 4]

/-- The mailboxes whose domain is S (R531). -/
def mboxSecure (n : Nat) : Bool := n < 16 || 68 ≤ n

/-- MBX_CFG_n (R511, R531, R648). -/
def State.mboxCfg (s : State) (n : Nat) : W64 :=
  if n < 16 then wd s.cfg.settings (8 + n)
  else if n < 64 then
    match s.job with
    | some j => j.mbx.getD (n - 16) 0
    | none => put 0 12 1
  else put 0 12 (chanRcv.getD (n - 64) 0)

/-- The receiver as an agent number; 0: none. -/
def State.mboxRcv (s : State) (n : Nat) : Nat :=
  let w := s.mboxCfg n
  if bit w 12 then 16 + s.physOf (fld w 0 12) else fld w 0 12

def State.mbox (s : State) (n : Nat) : MBox := SMap.get {} s.mbx.boxes n
def State.updMbox (s : State) (n : Nat) (g : MBox → MBox) : State :=
  { s with mbx := { s.mbx with boxes := SMap.upd {} s.mbx.boxes n g } }

/-- Whether an agent may write a mailbox at all. -/
def mboxMay (n who : Nat) : Bool :=
  if 64 ≤ n then chanSnd.getD (n - 64) 0 = who
  else !(mboxSecure n) || secureAgent who

/-- The fold of a receiver agent number. -/
def rcvFold (r : Nat) : Option Nat := if 16 ≤ r ∧ r ≤ 351 then some (r - 16) else none

/-- Tell the receiver of a word just stored (R515, R516). -/
def State.mboxNotify (s : State) (n : Nat) : State :=
  let r := s.mboxRcv n
  if r = 1 then
    if 16 ≤ n && n < 64 then s.raise n
    else if n = 66 then s.raise 6 else if n = 67 then s.raise 7 else s
  else match rcvFold r with
    | some f =>
      let slot := fld (s.mboxCfg n) 16 6
      if s.foldsDown then { s.raiseWake 3 with mbx := { s.mbx with whist := s.mbx.whist ++ [(n, r)] } }
      else (s.raiseWake 3).evtAdd f slot 1
    | none => s

/-- A write to MBX_DATA_n by an agent: the new state and what came of it. A number that R13 reserves is no sender. -/
def State.mboxWrite (s : State) (n who : Nat) (w : W64) : State × Status :=
  if 72 ≤ n || !agentNo who then (s, .bounds)
  else if !mboxMay n who then
    (s.updMbox n fun b => { b with refused := satAdd 16 b.refused 1 },
      if mboxSecure n && !secureAgent who then .deniedSecure else .unsupported)
  else if n < 64 && fld (s.mboxCfg n) 0 13 = 0 then
    (s.updMbox n fun b => { b with refused := satAdd 16 b.refused 1 }, .unsupported)
  else if (s.mbox n).full then (s.updMbox n fun b => { b with lost := satAdd 16 b.lost 1 }, .busy)
  else ((s.updMbox n fun b => { b with word := w, full := true, sender := who }).mboxNotify n, .ok)

/-- Whether an agent's read of MBX_TAKE_n is the receiver's (R511, R513). -/
def State.mboxTaker (s : State) (n who : Nat) : Bool :=
  let r := s.mboxRcv n
  r ≠ 0 && (r = who || match rcvFold r with
    | some f => who = 1024 + 8 * f
    | none => false)

/-- The additions of words stored while the folds were down are made when they run (R516). -/
def State.whistles (s : State) : State :=
  let l := s.mbx.whist
  l.foldl (fun s x =>
    match rcvFold (s.mboxRcv x.1) with
    | some f => s.evtAdd f (fld (s.mboxCfg x.1) 16 6) 1
    | none => s) { s with mbx := { s.mbx with whist := [] } }

end Sys2Proof.Machine
end

