-- ==== Sys2Proof/Machine/Accept.lean ====
section
/-!
DEFINITION. Sys2Proof/Machine/Accept.lean: how the command processor takes a command (R492–R498, R504, R646). An
accepted command waits in the queue until the row that names it acts on it.
-/
namespace Sys2Proof.Machine

/-- HST_CMD_ERR records the first failure since it was read; every failure raises vector 1 (R494, R526). -/
def State.cmdErr (s : State) (st : Status) (cslot tag : Nat) : State :=
  let r := s.host.regs
  let s := if fld r.cmdErr 0 8 ≠ 0 then s
    else { s with host := { s.host with regs := { r with
      cmdErr := put 0 8 st.code ||| put 8 5 cslot ||| put 32 32 tag } } }
  s.raise 1

/-- The bits that words 2, 3 and 4 of a command may hold, by OP (R496); none: OP is not in the table. -/
def cmdBits : Nat → Option (List Nat)
  | 0x01 => some []
  | 0x02 => some [64]
  | 0x03 => some [64, 64]
  | 0x04 => some [2]
  | 0x05 => some [48]
  | 0x06 => some []
  | 0x07 => some []
  | 0x08 => some [64]
  | 0x09 => some [64, 17, 64]
  | 0x0A => some [12]
  | 0x0B => some [3]
  | 0x0C => some []
  | 0x0D => some []
  | _ => none

def cmdReserved (ws : List W64) (bits : List Nat) : Bool :=
  (List.range 6).any fun i => (wd ws (2 + i)).toNat >>> (bits.getD i 0) ≠ 0

/-- The host states in which an OP is legal (R496). -/
def cmdLegal (op : Nat) (st : HostSt) : Bool :=
  match op, st with
  | 0x02, .offline | 0x0B, .offline | 0x0C, .offline => true
  | 0x03, .configured | 0x08, .configured => true
  | 0x04, .loaded | 0x07, .loaded | 0x08, .loaded | 0x09, .loaded | 0x0A, .loaded => true
  | 0x05, .running | 0x08, .running | 0x09, .running => true
  | 0x06, .paused | 0x07, .paused | 0x08, .paused | 0x09, .paused | 0x0A, .paused | 0x0B, .paused => true
  | 0x07, .recovering | 0x09, .recovering => true
  | 0x07, .faulted | 0x09, .faulted | 0x0A, .faulted => true
  | 0x01, _ | 0x0D, _ => true
  | _, _ => false

/-- A transition command is pending (R497). -/
def State.transPending (s : State) : Bool := s.host.queue.any fun c => transitionOps.contains c.op

/-- The checks of R494 from step 3 on that need no state of their own. In the mode of R646 every command of the table but NOP
and WARM_RESET completes with SIGNATURE, whatever its words. -/
def State.cmdCheck (s : State) (c : Cmd) : Status :=
  match cmdBits c.op with
  | none => .unsupported
  | some bits => firstFail [
      (s.cfg.boot = .noImage && c.op ≠ 0x01 && c.op ≠ 0x0D, .signature),
      (cmdReserved c.words bits, .reservedNonzero),
      (!cmdLegal c.op s.host.st, .notInState),
      (transitionOps.contains c.op && s.transPending, .busy)]

/-- The command processor takes a command of eight words. -/
def State.accept (s : State) (ws : List W64) (cslot : Nat) (aux : Option Nat) : State :=
  let c : Cmd := { words := ws, cslot := cslot, aux := aux }
  let st := firstFail [
    (fld (wd ws 0) 8 4 ≠ 1, .version),
    (fld (wd ws 0) 0 8 ≠ 0x70, .unsupported),
    (fld (wd ws 0) 12 20 ≠ 0 || fld (wd ws 1) 16 48 ≠ 0, .reservedNonzero),
    (bit (s.resWord c.rslot 0) 49, .busy)]
  if st ≠ .ok then s.cmdErr st cslot c.tag
  else
    let s := s.assignRes c.rslot
    match s.cmdCheck c with
    | .ok => { s with host := { s.host with queue := s.host.queue ++ [c] } }
    | e => s.result c e []

end Sys2Proof.Machine
end

