-- ==== Sys2Proof/Machine/Compress.lean ====
section
/-!
DEFINITION. Sys2Proof/Machine/Compress.lean: compressed gradient records (R397–R401): the values of a chunk, the
record, and its decoding.
-/
namespace Sys2Proof.Machine

/-- Bytes cut into 32-bit patterns. -/
def leW32 : Nat → List Byte → List W32
  | 0, _ => []
  | n + 1, bs => BitVec.ofNat 32 (leNat (bs.take 4)) :: leW32 n (bs.drop 4)

def w32Bytes (ws : List W32) : List Byte := ws.flatMap fun w => leBytes 4 w.toNat

/-- |v| of a finite pattern, as an ordered number. -/
def magBits (v : W32) : Nat := v.toNat % 2 ^ 31

/-- Keep the `k` largest magnitudes, equal ones the lower slot first; the list is in falling order. -/
def insTop (k : Nat) (x : Nat × Nat) : List (Nat × Nat) → List (Nat × Nat)
  | [] => if k = 0 then [] else [x]
  | y :: l => if k = 0 then [] else if y.1 < x.1 then (x :: y :: l).take k else y :: insTop (k - 1) x l

/-- The selected slots of a chunk, in ascending order (R397). -/
def topSlots (k : Nat) (vs : List W32) : List Nat :=
  let l := (vs.foldl (fun (a : List (Nat × Nat) × Nat) v => (insTop k (magBits v, a.2) a.1, a.2 + 1)) ([], 0)).1
  l.foldl (fun m x => insNat m x.2) []

/-- An FP32 value divided by a count, rounded once by RNE. -/
def divCount (v : W32) (n : Nat) : W32 :=
  match f32 v with
  | .fin neg m e =>
    let q := m * 2 ^ 100 / n
    toF32 (.fin neg (2 * q + (if m * 2 ^ 100 % n = 0 then 0 else 1)) (e - 101))
  | w => toF32 w

/-- The mean of |v| in ascending slot order; +0 of none. -/
def meanAbs (vs : List W32) : W32 :=
  if vs.isEmpty then 0 else divCount (vs.foldl (fun a v => fAdd a (fAbs v)) 0) vs.length

/-- Compression modes (R376). -/
def compTOPK : Nat := 1
def compSIGN : Nat := 2
def compTOPKSIGN : Nat := 3

/-- What a compressed record says (R398): chunk, mode, value format, NONFIN, scale, sign bits, entries (index, pattern
of the value). -/
structure Record where
  chunk   : Nat
  comp    : Nat
  valFp32 : Bool
  nonfin  : Bool
  scale   : W32
  signs   : List Bool
  entries : List (Nat × Nat)
  deriving DecidableEq, Repr

/-- The pattern of a selected value (R397): FP32, or BF16 with SAT = 1. -/
def valPattern (fp32 : Bool) (v : W32) : Nat := if fp32 then v.toNat else (fmtBF16.narrow .rne true (f32 v)).1
def patternVal (fp32 : Bool) (p : Nat) : W32 := if fp32 then BitVec.ofNat 32 p else BitVec.ofNat 32 (p <<< 16)

/-- The record of the values of a chunk (R397, R400). The scale of a non-finite chunk is open (log entry 33). -/
def mkRecord (comp ksel : Nat) (valFp32 : Bool) (chunk : Nat) (vs : List W32) (open_ : W32) : Record :=
  if vs.any fun v => !(f32 v).isFinite then
    { chunk := chunk, comp := comp, valFp32 := valFp32, nonfin := true,
      scale := if comp = compTOPK then 0 else open_, signs := [], entries := [] }
  else
    let sel := if comp = compSIGN then [] else topSlots (min ksel vs.length) vs
    let rest := (List.range vs.length).filter fun i => !(sel.contains i)
    let neg := fun i => (f32 (vs.getD i 0)).sign
    { chunk := chunk, comp := comp, valFp32 := valFp32, nonfin := false,
      scale := if comp = compTOPK then 0 else meanAbs (rest.map fun i => vs.getD i 0),
      signs := if comp = compTOPK then []
        else (List.range vs.length).map fun i => !(sel.contains i) && neg i,
      entries := sel.map fun i => (i, valPattern valFp32 (vs.getD i 0)) }

/-- The decoded values of a record, for `n` slots (R397, R399). -/
def Record.decode (r : Record) (n : Nat) : List W32 :=
  (List.range n).map fun i =>
    match r.entries.find? fun x => x.1 = i with
    | some (_, p) => patternVal r.valFp32 p
    | none =>
      if r.comp = compTOPK then 0
      else if r.signs.getD i false then fNeg r.scale else r.scale

/-- Bits as bytes, bit 0 of the first byte first. -/
def bitBytes (bs : List Bool) : List Byte :=
  (List.range (ceilDiv bs.length 8)).map fun k =>
    BitVec.ofNat 8 ((List.range 8).foldl (fun n i => n + b2n (bs.getD (8 * k + i) false) * 2 ^ i) 0)

/-- The record's bytes, whole 64-byte units (R398). -/
def Record.bytes (r : Record) : List Byte :=
  let w := if r.valFp32 then 44 else 28
  let packed := (r.entries.foldl (fun (a : Nat × Nat) x => (a.1 + (x.1 + x.2 * 4096) * 2 ^ a.2, a.2 + w)) (0, 0)).1
  let body := bitBytes r.signs ++ leBytes (ceilDiv (w * r.entries.length) 8) packed
  let units := ceilDiv (16 + body.length) 64
  let hdr := put 0 32 r.chunk ||| put 32 9 r.entries.length ||| put 41 2 r.comp ||| put 43 1 (b2n r.valFp32)
    ||| put 44 1 (b2n r.nonfin) ||| put 48 11 units
  leBytes 8 hdr.toNat ++ leBytes 8 r.scale.toNat ++ body ++ List.replicate (64 * units - 16 - body.length) 0

/-- One record read from the front of a body; `len` gives the slots of a chunk. -/
def parseRecord (len : Nat → Nat) (bs : List Byte) : Record :=
  let w := BitVec.ofNat 64 (leNat (bs.take 8))
  let comp := fld w 41 2
  let fp := bit w 43
  let nf := bit w 44
  let n := len (fld w 0 32)
  let signBytes := if nf || comp = compTOPK then 0 else ceilDiv n 8
  let area := (bs.drop 16).take signBytes
  let ew := if fp then 44 else 28
  let packed := leNat ((bs.drop (16 + signBytes)).take (ceilDiv (ew * fld w 32 9) 8))
  { chunk := fld w 0 32, comp := comp, valFp32 := fp, nonfin := nf,
    scale := BitVec.ofNat 32 (leNat ((bs.drop 8).take 4)),
    signs := if signBytes = 0 then [] else (List.range n).map fun i => (area.getD (i / 8) 0).getLsbD (i % 8),
    entries := if nf then [] else (List.range (fld w 32 9)).map fun j =>
      let e := (packed >>> (ew * j)) % 2 ^ ew
      (e % 4096, e / 4096) }

/-- The records of a packet body; a record that gives no length, or more than is left, ends the reading. -/
def parseRecords (len : Nat → Nat) : Nat → List Byte → List Record
  | 0, _ => []
  | n + 1, bs =>
    let u := 64 * fld (BitVec.ofNat 64 (leNat (bs.take 8))) 48 11
    if u = 0 || bs.length < u then [] else parseRecord len (bs.take u) :: parseRecords len n (bs.drop u)

/-- Records gathered into packets of at most 256 units, in order: the first chunk of each packet, and its body. -/
def packRecords (rs : List (Nat × List Byte)) : List (Nat × List Byte) :=
  (rs.foldl (fun (a : List (Nat × List Byte)) r =>
    match a with
    | (c, b) :: l => if b.length + r.2.length ≤ 16384 then (c, b ++ r.2) :: l else r :: a
    | [] => [r]) []).reverse

end Sys2Proof.Machine
end

