-- ==== Sys2Proof/Machine/Link.lean ====
section
/-!
DEFINITION. Sys2Proof/Machine/Link.lean: training and the handshake (R338–R342), frames and their replay (R336, R337),
what a received packet must look like (R338, R343–R346), TIME exchanges (R358, R359) and leaving service (R360, R361).
-/
namespace Sys2Proof.Machine

/-! ### The handshake (R340) -/

def State.rank (s : State) : Nat := if s.job.isSome then fld (s.jobWord 4) 0 16 else 0xFFFF
def State.jobId (s : State) : W64 := s.jobWord 1

/-- The credits a handshake offers (R340, R350): RES and CTL, and on AUX every channel. -/
def Port.offer (x : Port) (vc : Nat) : Nat := if 2 ≤ vc || x.role = 6 then x.share vc else 0

def State.handshake (s : State) (p : Nat) : List W64 :=
  let x := s.port p
  [put 0 8 0x40 ||| put 8 4 1,
   put 0 8 1 ||| put 8 8 1 ||| put 16 3 x.role ||| put 24 8 1 ||| put 32 16 (fld (wd s.cfg.settings 1) 32 16)
     ||| put 48 16 s.rank,
   s.jobId, Config.deviceId,
   (List.range 4).foldl (fun (w : W64) vc => w ||| put (16 * vc) 16 (x.offer vc)) 0, 0, 0, 0]

def hsRole (ws : List W64) : Nat := fld (wd ws 1) 16 3
def hsFeed (ws : List W64) : Nat := fld (wd ws 1) 32 16
def hsRank (ws : List W64) : Nat := fld (wd ws 1) 48 16
def hsCred (ws : List W64) (vc : Nat) : Nat := fld (wd ws 4) (16 * vc) 16

/-- The checks of R341. -/
def handshakeCheck (ws : List W64) : Status :=
  firstFail [
    (hdrVer ws ≠ 1, .version),
    (hdrType ws ≠ 0x40, .unsupported),
    (fld (wd ws 0) 12 20 ≠ 0 || fld (wd ws 1) 19 5 ≠ 0 || wd ws 5 ≠ 0 || wd ws 6 ≠ 0
      || wd ws 7 ≠ 0, .reservedNonzero),
    (min (fld (wd ws 1) 8 8) 1 < max (fld (wd ws 1) 0 8) 1, .version)]

/-- Complementary roles (R330). -/
def partnerRole : Nat → Nat
  | 1 => 2
  | 2 => 1
  | 3 => 3
  | 4 => 5
  | 5 => 4
  | 6 => 6
  | _ => 7

/-! ### Training (R338, R339) -/

/-- A port starts training: it sends its handshake, and its partner holds the credits that offers. -/
def State.train (s : State) (p : Nat) : State :=
  let x := s.port p
  if x.role = 0 || x.disable then s.setPort p { x with st := if x.disable then .disabled else .down }
  else
    s.setPort p { x with
      st := .training, since := s.now, timeN := 0, width := 0, ver := 0, peer := [], hsSent := s.handshake p, decodeAt := s.now,
      failedAt := none, adv := (List.range 4).foldl (fun m vc => SMap.set 0 m vc (x.offer vc)) [] }

/-- Training, or staying in service, has failed: DOWN, with the status in DRV_STS.ERR. -/
def State.trainFail (s : State) (p : Nat) (st : Status) : State :=
  s.updPort p fun x => { x with
    st := .down, width := 0, ver := 0, since := s.now, failedAt := some s.now,
    regs := { x.regs with err := st.code } }

/-- The PORT reset domain (R365, R367, R369, R370); ERR stays. -/
def Port.clearRegs (x : Port) : Port :=
  { x with width := 0, ver := 0, peer := [], times := [], timeReq := [], timeN := 0,
           regs := { x.regs with tofs := 0, tofsAt := 0, rxErr := 0, rxCnt := 0 } }

/-- A port leaves service and enters RESET (R360, R361 step 1): its SENDs end with LINK_DOWN, and what waits to be sent
or acknowledged is dropped. -/
def State.leave (s : State) (p : Nat) (err : Option Status) (toDown : Bool) : State :=
  let x := s.port p
  let was := x.st = .active
  let s := s.setPort p { x.clearRegs with
    st := .reset, toDown := toDown, txq := [], unacked := [], nak := false, replays := 0,
    regs := { x.clearRegs.regs with err := match err with
      | some e => e.code
      | none => x.regs.err } }
  let s := if was then s.failSends p else s
  { s with due := s.due ++ (if was then [Due.portLeft p] else []) ++ [Due.portReset p] }

def Port.waitingCount (x : Port) : Nat := x.rxq.foldl (fun n q => n + q.2.length) 0

/-- Steps 3 to 5 of R361: what was not applied is discarded and counted (R370), what was queued meanwhile goes, credits
return to the handshake's initial values, and training starts; a port whose partner was refused goes DOWN (R341), and one
that was disabled meanwhile to DISABLED (R364). -/
def State.portAgain (s : State) (p : Nat) : State :=
  let x := s.port p
  let s := s.setPort p { x with
    st := .down, txq := [], unacked := [], rxq := [], timeIn := [], credits := [], adv := [], deficit := [], turn := 0,
    seq := 0, fseqOut := 0, fseqIn := 0, toDown := false,
    regs := { x.regs with rxCnt := bumpFld x.regs.rxCnt 32 32 x.waitingCount } }
  if x.toDown && !x.disable then s.trainFail p (Status.ofCode x.regs.err) else s.train p

/-- The lanes that equalised and aligned (R339): ×16, ×8 on lanes 0–7, ×8 on lanes 8–15, or none. -/
def opEqualisation (s : State) (p : Nat) (lanes : BitVec 16) : State :=
  if (s.port p).st ≠ .training then s
  else
    let w := if lanes = 0xFFFF#16 then 3 else if fld lanes 0 8 = 0xFF then 1 else if fld lanes 8 8 = 0xFF then 2 else 0
    if w = 0 then s.trainFail p .linkDown else s.updPort p fun x => { x with width := w }

/-- R342: both ends have complementary roles, and either both are AUX or job and rank agree. -/
def State.peerMatches (s : State) (p : Nat) : Bool :=
  let x := s.port p
  hsRole x.peer = partnerRole x.role && (x.role = 6 ||
    (s.jobId ≠ 0 && wd x.peer 2 = s.jobId &&
      match s.job with
      | some j => hsRank x.peer = fld (j.ports.getD p (0, 0)).1 16 16
      | none => false))

/-- An ACTIVE port falls back to HELD: frames not yet acknowledged stay for replay (R336); what waits on the channels that
HELD does not serve goes, and so do their credits, both ways, until the port is ACTIVE again (R338). -/
def Port.hold (x : Port) : Port :=
  { x with
    st := .held,
    txq := SMap.set [] (SMap.set [] (SMap.set [] x.txq 0 []) 1 []) 2 [],
    credits := SMap.set 0 (SMap.set 0 (SMap.set 0 x.credits 0 0) 1 0) 2 0,
    adv := (List.range 3).foldl (fun m vc => SMap.set 0 m vc (x.offer vc)) x.adv }

/-- Raise a HELD port to ACTIVE, or hold it back (R342). -/
def State.judge (s : State) (p : Nat) : State :=
  let x := s.port p
  if s.peerMatches p then
    if x.st = .held then
      let s := s.setPort p { x with
        st := .active, since := s.now, recAt := s.now,
        credits := (List.range 3).foldl (fun m vc => SMap.upd 0 m vc (· + hsCred x.peer vc)) x.credits }
      let s := (s.giveCredits p).pump p
      { s with due := s.due ++ [Due.portUp p] }
    else s
  else
    let s := s.updPort p fun x => { x with regs := { x.regs with err := Status.bounds.code } }
    if x.st = .active then
      let s := (s.updPort p Port.hold).failSends p
      { s with due := s.due ++ [Due.portLeft p] }
    else s

/-- LINK_HANDSHAKE: the partner's block arrives in TRAINING, or again later (R340–R342). -/
def opHandshake (s : State) (p : Nat) (ws : List W64) : State :=
  let x := s.port p
  match x.st with
  | .training =>
    if x.width = 0 then s
    else match handshakeCheck ws with
      | .ok =>
        ((s.setPort p { x with
          st := .held, ver := 1, peer := ws, since := s.now, decodeAt := s.now,
          credits := SMap.set 0 x.credits vcCTL (hsCred ws vcCTL) }).judge p)
      | e => s.trainFail p e
  | .held | .active =>
    match handshakeCheck ws with
    | .ok => (s.setPort p { x with peer := ws, decodeAt := s.now }).judge p
    | e => s.leave p (some e) true
  | _ => s

/-- The device's own JOB_ID, RANK or roles have changed: the handshake goes out again (R340), and R342 is judged
anew. -/
def State.rehandshake (s : State) (p : Nat) : State :=
  match (s.port p).st with
  | .held | .active => (s.updPort p fun x => { x with hsSent := s.handshake p }).judge p
  | .training => s.updPort p fun x => { x with hsSent := s.handshake p }
  | _ => s

/-- A port takes a role (R330, R331): a new role trains; NONE powers the port down. -/
def State.setRole (s : State) (p role : Nat) : State :=
  let x := s.port p
  if x.role = role then s.rehandshake p
  else
    match x.st with
    | .held | .active | .training | .reset =>
      (s.leave p none false).updPort p fun x => { x with role := role }
    | _ => (s.updPort p fun x => { x with role := role }).train p

/-! ### Frames (R336, R337) -/

/-- Replay every unacknowledged frame. -/
def State.replay (s : State) (p : Nat) : State :=
  s.updPort p fun x => { x with
    unacked := x.unacked.map fun fr => { fr with sentAt := s.now },
    replays := x.replays + 1, regs := { x.regs with linkCnt := bumpFld x.regs.linkCnt 48 16 1 } }

/-- Frames up to the acknowledged one leave the replay buffer. -/
def ackFrames (l : List Frame) (ack : Nat) : List Frame :=
  match l.findIdx? fun fr => fr.fseq = ack with
  | some i => l.drop (i + 1)
  | none => l

/-- Note a discarded or refused packet (R369). -/
def State.rxNote (s : State) (p : Nat) (k : Packet) (st : Status) : State :=
  s.updPort p fun x =>
    if fld x.regs.rxErr 0 8 ≠ 0 then x
    else { x with regs := { x.regs with
      rxErr := put 0 8 st.code ||| put 8 4 k.ptype ||| put 12 2 k.vc |||
        put 16 48 (if k.ptype = ptSIGNAL then k.fB % 4096 else k.addr) } }

/-- Discard a packet (R346, R370). -/
def State.rxDiscard (s : State) (p : Nat) (k : Packet) (st : Status) : State :=
  (s.rxNote p k st).updPort p fun x => { x with regs := { x.regs with rxCnt := bumpFld x.regs.rxCnt 32 32 1 } }

/-- Refuse a packet (R352); `stop`: on a port other than AUX the job stops for good. -/
def State.rxRefuse (s : State) (p : Nat) (k : Packet) (st : Status) (stop : Bool) : State :=
  let s := (s.rxNote p k st).updPort p fun x =>
    { x with regs := { x.regs with rxCnt := bumpFld x.regs.rxCnt 0 32 1 } }
  if stop && (s.port p).role ≠ 6 then { s with due := s.due ++ [Due.fault (8 + p) st.code p false] } else s

/-- The record kinds of R426 and the bits their words 1 and 2 may hold. -/
def ctrlBits : Nat → Option (W64 × W64)
  | 0x01 => some (put 0 48 (2 ^ 48 - 1) ||| put 63 1 1, 0)
  | 0x02 => some (put 0 48 (2 ^ 48 - 1) ||| put 63 1 1, 0)
  | 0x03 => some (0, 0)
  | 0x04 => some (0, 0)
  | 0x05 => some (put 0 4 15, 0)
  | 0x06 => some (put 0 4 15, 0)
  | 0x07 => some (put 0 8 255 ||| put 16 16 65535, put 0 12 4095)
  | 0x08 => some (0, 0)
  | 0x09 => some (put 0 48 (2 ^ 48 - 1) ||| put 63 1 1, 0)
  | 0x0A => some (0, 0)
  | 0x0B => some (put 0 13 8191 ||| put 16 16 65535, 0)
  | _ => none

/-- The eight words of a control record's body. -/
def recWords (k : Packet) : List W64 := leWords 8 k.body

def ctrlBad (k : Packet) : Bool :=
  let ws := recWords k
  match ctrlBits (fld (wd ws 0) 0 8) with
  | none => true
  | some (m1, m2) =>
    k.len ≠ 1 || k.addr ≠ 0
      || fld (wd ws 0) 8 4 ≠ 1 || fld (wd ws 0) 12 4 ≠ 0
      || wd ws 1 &&& ~~~m1 ≠ 0 || wd ws 2 &&& ~~~m2 ≠ 0
      || (List.range 5).any fun i => wd ws (3 + i) ≠ 0

/-- OP of a STRIPE packet (R442): 0 SHARE, 1 CTRL, 2 RESTORE. -/
def stripeOp (k : Packet) : Nat := (k.fA >>> 9) % 4

/-- A packet that R346 discards, on a port of a role. -/
def malformed (role : Nat) (k : Packet) : Bool :=
  let a := k.fA
  let b := k.fB
  let c := k.fC
  let ty := k.ptype
  fld k.w0 44 4 ≠ 0 || k.body.length ≠ 64 * k.len ||
  (if ty = ptDATA then
    k.len < 1 || 256 < k.len || a ≠ 0 || b ≠ 0 || c >>> 14 ≠ 0 || (c >>> 6) % 4 ≠ 0 || k.addr % 64 ≠ 0
      || (k.len = 1 && 64 ≤ c % 64 + (c >>> 8) % 64)
  else if ty = ptRACC then
    k.vc ≠ vcGRAD || k.len < 1 || 256 < k.len || a >>> 10 ≠ 0 || (c >>> 15) % 2 ≠ 0
  else if ty = ptSIGNAL then
    k.len ≠ 0 || a >>> 6 ≠ 0 || b >>> 12 ≠ 0 || c = 0 || 65535 < c || k.addr ≠ 0
  else if ty = ptMSG then
    let kind := a % 256
    k.vc ≠ vcCTL || k.len ≠ 1 || a >>> 8 ≠ 0 || b ≠ 0 || c ≠ 0
      || (kind ≠ 2 && kind ≠ 3 && k.addr ≠ 0) || ((kind = 2 || kind = 3) && role ≠ 6)
      || ((kind = 0x10 || kind = 0x11) && role ≠ 4 && role ≠ 5)
      || !(kind ≤ 3 || kind = 0x10 || kind = 0x11)
  else if ty = ptMIRROR then
    k.vc ≠ vcRES || k.len < 1 || 256 < k.len || a >>> 12 ≠ 0 || b >>> 3 ≠ 0 || c % 65536 ≠ 0 || k.addr % 64 ≠ 0
  else if ty = ptSTRIPE then
    k.vc ≠ vcRES || k.len < 1 || 256 < k.len || a >>> 11 ≠ 0 || b >>> 1 ≠ 0 || c % 65536 ≠ 0 || k.addr % 64 ≠ 0
      || stripeOp k = 3 || (stripeOp k = 1 && (ctrlBad k || role = 6))
      || (0x10 ≤ a % 32 && a % 32 < 0x1F)
  else if ty = ptTIME then
    k.vc ≠ vcCTL || k.len ≠ 0 || a >>> 1 ≠ 0 || b ≠ 0 || (a = 0 && (k.addr ≠ 0 || k.w3 ≠ 0))
  else if ty = ptCREDIT then k.len ≠ 0 || k.vc ≠ 0 || a ≠ 0 || k.w3 ≠ 0
  else true)

/-- Whether a port state serves a packet (R338). -/
def PortSt.serves (st : PortSt) (k : Packet) : Bool :=
  match st with
  | .active => true
  | .held => k.vc = vcCTL || k.ptype = ptTIME || k.ptype = ptCREDIT
  | .training => k.ptype = ptTIME
  | _ => false

/-- A packet held for a fold domain in Rest or Deep (R357): slot additions, writes to fold stores, and RESUME, which adds to
PERMIT slots. A write to the store of a fold in Graze waits for the fold (R18); a slot addition waits there itself. -/
def State.heldDown (s : State) (k : Packet) : Bool :=
  let store := match place k.addr with
    | .store f _ => k.ptype = ptDATA && (s.foldsDown || (s.fold f).island.graze)
    | _ => false
  store || (s.foldsDown && (k.ptype = ptSIGNAL
    || (k.ptype = ptSTRIPE && stripeOp k = 1 && fld (wd (recWords k) 0) 0 8 = 0x09)))

/-- A packet that came before the fold domain went down waits for it (R357). -/
def State.packetHeld (s : State) : Bool :=
  (List.range 6).any fun p => (s.port p).rxq.any fun q => q.2.any s.heldDown

/-- One whole packet has arrived (R335): into the receive buffer, or discarded. -/
def State.rxPacket (s : State) (p : Nat) (k : Packet) : State :=
  let x := s.port p
  let vc := if k.ptype = ptTIME || k.ptype = ptCREDIT then vcHdr else k.vc
  let s := s.setPort p { x with adv := SMap.upd 0 x.adv k.vc (· - pktCost k), seqIn := k.seq }
  if !x.st.serves k || malformed x.role k then (s.rxDiscard p k .unsupported).giveCredits p
  else
    let s := s.updPort p fun x => { x with
      rxq := SMap.upd [] x.rxq vc (· ++ [k]),
      timeIn := if k.ptype = ptTIME then x.timeIn ++ [s.now] else x.timeIn }
    if s.heldDown k then s.raiseWake 4 else s

/-- FRAME_RECEIVE (R333, R335, R336). -/
def opFrame (s : State) (p fseq ack : Nat) (nak ok : Bool) (corr uncorr : Nat) (pkts : List Packet) : State :=
  match (s.port p).st with
  | .training | .held | .active =>
    let s := s.updPort p fun x => { x with regs := { x.regs with
      linkCnt := bumpFld (bumpFld x.regs.linkCnt 0 32 corr) 32 16 uncorr } }
    if !ok then s.updPort p fun x => { x with nak := true }
    else
      let s := s.updPort p fun x => { x with decodeAt := s.now }
      if fseq ≠ (s.port p).fseqIn then s
      else
        let x := s.port p
        let left := ackFrames x.unacked ack
        let s := s.setPort p { x with
          fseqIn := (x.fseqIn + 1) % 65536, nak := false, unacked := left,
          replays := if left.length < x.unacked.length then 0 else x.replays }
        let s := if nak && !left.isEmpty && (s.port p).replays < 8 then s.replay p else s
        (pkts.foldl (fun s k => s.rxPacket p k) s).pump p
  | _ => s

/-- REPLAY_TIMEOUT: 4,000 ticks since the oldest unacknowledged frame was last sent. -/
def opReplayTimeout (s : State) (p : Nat) : State :=
  match (s.port p).st, (s.port p).unacked with
  | .active, fr :: _ | .held, fr :: _ | .training, fr :: _ =>
    if (s.port p).replays < 8 then
      { s with now := max s.now (fr.sentAt + 4000) }.replay p
    else s
  | _, _ => s

/-- LINK_DOWN_TIMEOUT: 4,000 ticks after the eighth replay, or 100,000 ticks without a frame that decodes (R337). -/
def opLinkDown (s : State) (p : Nat) : State :=
  let x := s.port p
  match x.st with
  | .active | .held =>
    let due := match x.unacked with
      | fr :: _ => if 8 ≤ x.replays then fr.sentAt + 4000 else x.decodeAt + 100000
      | [] => x.decodeAt + 100000
    { s with now := max s.now due }.leave p (some .linkDown) false
  | _ => s

/-- TRAINING_TIMEOUT: 50,000,000 ticks without success (R338). -/
def opTrainingTimeout (s : State) (p : Nat) : State :=
  let x := s.port p
  if x.st = .training then { s with now := max s.now (x.since + 50000000) }.trainFail p .linkDown else s

/-- TRAINING_RETRY: 100,000,000 ticks after a failure (R338). -/
def opTrainingRetry (s : State) (p : Nat) : State :=
  let x := s.port p
  match x.st, x.failedAt with
  | .down, some t => { s with now := max s.now (t + 100000000) }.train p
  | _, _ => s

/-! ### Timebase exchanges (R358, R359) -/

/-- The mean of the sum of doubled exact values over their count, in 1/16 tick, ties to even. -/
def meanSixteenth (l : List Int) : Int :=
  let n := l.length
  if n = 0 then 0
  else
    let num := l.foldl (· + ·) 0 * 8
    let q := num / (n : Int)
    let r := num % (n : Int)
    if 2 * r < n then q else if (n : Int) < 2 * r then q + 1 else if q % 2 = 0 then q else q + 1

/-- TIME_EXCHANGE: a request leaves: 16 while in TRAINING, then one every 1,048,576 ticks (R359). -/
def opTimeExchange (s : State) (p : Nat) : State :=
  let x := s.port p
  match x.st with
  | .training | .held | .active =>
    if x.st = .training && 16 ≤ x.timeN then s else
    let s := if x.st = .training then s else { s with now := max s.now (x.timeAt + 1048576) }
    let s := s.setPort p { x with timeAt := s.now, timeN := x.timeN + 1 }
    s.send p (mkPacket ptTIME vcCTL 0 0 0 0 0 0 [])
  | _ => s

/-- A TIME packet is served, with the tick at which it arrived: a request is answered, a reply that matches enters the
means. -/
def State.rxTime (s : State) (p : Nat) (k : Packet) : State :=
  let came := ((s.port p).timeIn.head?).getD s.now
  let s := s.updPort p fun x => { x with timeIn := x.timeIn.drop 1 }
  if k.fA = 0 then
    let t2 := BitVec.ofNat 64 came
    s.send p { mkPacket ptTIME vcCTL 0 1 (fld k.w2 0 48) 0 0 0 [] with w3 := t2 }
  else
    let x := s.port p
    match x.timeReq.find? fun t1 => fld t1 0 48 = k.addr with
    | none => s
    | some t1 =>
      let t1 : Int := t1.toNat
      let t2 : Int := k.w3.toNat
      let t3 : Int := k.w2.toNat
      let t4 : Int := came
      let l := ((t2 - t1) - (t4 - t3), (t4 - t1) - (t3 - t2)) :: x.times
      let l := l.take 16
      s.setPort p { x with
        timeReq := x.timeReq.filter fun t => fld t 0 48 ≠ k.addr, times := l,
        regs := { x.regs with
          tofs := put 0 40 (wrapNat 40 (meanSixteenth (l.map (·.1)))) |||
            put 40 24 (wrapNat 24 (meanSixteenth (l.map (·.2)))),
          tofsAt := BitVec.ofNat 64 came } }

/-- A CREDIT packet returns credits (R344, R348). -/
def State.rxCredit (s : State) (p : Nat) (k : Packet) : State :=
  (s.updPort p fun x => { x with
    credits := (List.range 4).foldl (fun m vc => SMap.upd 0 m vc (· + fld k.w1 (16 * vc) 16)) x.credits }).pump p

end Sys2Proof.Machine
end

