-- ==== Sys2Proof/Machine/FoldOps.lean ====
section
/-!
DEFINITION. Sys2Proof/Machine/FoldOps.lean: clocks of a fold's island (R608, R609), the fold reset (R124, R183, R253,
R323), how a job's programs begin (R208), and what is released of a failed agent (R453).
-/
namespace Sys2Proof.Machine

/-! ### Clocks -/

/-- Whether a fold's island is running, fold by fold and domain by domain. -/
def State.stopClock (s : State) (f : Nat) : State :=
  if !(s.fold f).clocked then s.updFold f fun v => { v with island := { v.island with stopped := true } }
  else
    let n := s.cyclesOf f
    let s := (s.foldRec f 2 n).pmc f 0x03 1
    s.updFold f fun v => { v with island := { v.island with stopped := true, cycBase := n } }

/-- READY threads of every core take their core. -/
def State.schedAll (s : State) (f : Nat) : State :=
  (s.fold f).cores.foldl (fun s x => s.sched f x.1) s

/-- The clock of a fold that stood still with its domain runs again; a fold that was in Graze is in Run as well. -/
def State.clockOn (s : State) (f : Nat) : State :=
  if !(s.fold f).island.stopped then s
  else s.updFold f fun v => { v with island := { v.island with stopped := false, graze := false, cycFrom := s.now } }

/-- The slot additions that a fold in Graze held are made (R230), and its READY threads go on. -/
def State.goOn (s : State) (f : Nat) : State :=
  let held := (s.fold f).island.held
  let s := if held.isEmpty then s else s.updFold f fun v => { v with island := { v.island with held := [] } }
  held.foldl (fun s x => s.evtApply f x.1 x.2) (s.schedAll f)

/-- A fold leaves Graze (R18, R230, R552): its clock resumes, the slot additions that woke it are applied, and packets held
for it are performed. -/
def State.grazeExit (s : State) (f : Nat) : State :=
  let v := s.fold f
  if !v.island.graze then s
  else
    let held := v.island.held
    let s := s.updFold f fun v => { v with
      island := { v.island with graze := false, held := [], cycFrom := s.now } }
    let s := s.foldRec f 3 v.island.cycBase
    let s := held.foldl (fun s x => s.evtApply f x.1 x.2) (s.schedAll f)
    { s with due := s.due ++ [.awake] }

/-! ### The fold reset -/

/-- FC_SIZE of a fold: what the loaded job gives the logical fold that runs on it (R249, R651). -/
def State.jobFc (s : State) (f : Nat) : Nat :=
  match s.job, s.logicalOf f with
  | some j, some n => fld (wd (j.folds.getD n []) 0) 48 3
  | _, _ => 0

/-- Reset a fold: everything in the FOLD domain, its engines and queues, its watch and demand entries; the fold store
stays, and what was sent stays sent. -/
def State.resetFold (s : State) (f : Nat) : State :=
  let v := s.fold f
  let s := if v.clocked then s.foldRec f 2 (s.cyclesOf f) else s
  let i := v.island
  let s := s.setFold f {
    resets := v.resets + 1, fcSize := s.jobFc f, regs := { memErr := v.regs.memErr },
    island := { stopped := i.stopped, failed := i.failed, cycFrom := s.now,
                boostMhz := i.boostMhz } }
  let s := if (s.fold f).clocked then s.foldRec f 3 0 else s
  let s := { s with
    notes := s.notes.filter fun n => n.fold ≠ f,
    dies := SMap.remap {} s.dies fun _ (x : Die) => { x with watch := x.watch.filter fun w => w.fold ≠ f },
    ports := SMap.remap {} s.ports fun _ (x : Port) => { x with
      txq := SMap.remap [] x.txq fun _ (l : List TxPkt) => l.filter fun (t : TxPkt) => match t.owner with
        | some (g, _, _) => decide (g ≠ f)
        | none => true,
      unacked := x.unacked.map fun (fr : Frame) => match fr.pkt.owner with
        | some (g, _, _) => if g = f then { fr with pkt := { fr.pkt with owner := none } } else fr
        | none => fr } }
  s

/-- Reset every fold that the device has (R458). -/
def State.resetFolds (s : State) : State := (List.range 336).foldl (fun s f => s.resetFold f) s

/-- A logical fold begins its program on T0 of C0 (R208). -/
def State.beginFold (s : State) (n step : Nat) : State :=
  let w := s.fldMapReg n
  if fld w 0 12 = 0xFFF then s
  else
    let f := fld w 0 12
    let entry := match s.job with
      | some j => fld (wd (j.folds.getD n []) 0) 0 48
      | none => 0
    let t : Thread := { st := .ready, pc := BitVec.ofNat 48 entry,
                        g := SMap.set 0 (SMap.set 0 [] 1 (BitVec.ofNat 64 n)) 2 (BitVec.ofNat 64 step) }
    let s := s.updFold f fun v => { v with
      evt := [], fcSize := s.jobFc f, cores := v.cores.map fun (c, x) => (c, { x with threads := [] }) }
    (s.setThread f 0 0 t).sched f 0

def State.beginFolds (s : State) (step : Nat) : State :=
  (List.range 320).foldl (fun s n => s.beginFold n step) s

/-! ### Release of what an agent held (R453) -/

/-- Free the crooks and empty the mailboxes of a set of agents. -/
def State.releaseAgents (s : State) (agents : List Nat) : State :=
  { s with mbx := { s.mbx with
    crooks := SMap.remap {} s.mbx.crooks fun _ (c : Crook) => if agents.contains c.owner then { c with owner := 0 } else c,
    boxes := SMap.remap {} s.mbx.boxes fun n (b : MBox) =>
      if b.full && agents.contains (s.mboxRcv n) then { b with full := false, word := 0 } else b } }

/-- The agent numbers of a fold (R13). -/
def foldAgents (f : Nat) : List Nat := (16 + f) :: (List.range 8).map fun c => coreAgent f c

end Sys2Proof.Machine
end

