-- ==== Sys2Proof/Machine/Tally.lean ====
section
/-!
DEFINITION. Sys2Proof/Machine/Tally.lean: the job's resilience settings and protected tensors (R415–R418, R421), the
mirror reserve (R42, R430), the tally (R446–R449) and the fault record (R477).
-/
namespace Sys2Proof.Machine

/-! ### The resilience header (R415) -/

def State.resHdr (s : State) : List W64 :=
  match s.job with
  | some j => j.resil
  | none => []

def resReserve (h : List W64) : Nat := fld (wd h 0) 14 2
def resAccept (h : List W64) : Bool := bit (wd h 0) 12
def resAdopt (h : List W64) : Bool := bit (wd h 0) 13
def resK (h : List W64) : Nat := fld (wd h 1) 0 13
def resP (h : List W64) : Nat := fld (wd h 1) 16 2
def resSgroup (h : List W64) : Nat := fld (wd h 1) 24 6
def resParent (h : List W64) : Nat := fld (wd h 1) 32 4
def resChildren (h : List W64) : List Nat := (List.range 6).filter fun p => bit (wd h 1) (40 + p)
def resSmall (h : List W64) : Nat := if fld (wd h 2) 0 48 = 0 then 0x4000000 else fld (wd h 2) 0 48
def resChg (h : List W64) : Nat := if fld (wd h 2) 48 8 = 0 then 5 else fld (wd h 2) 48 8

/-- The lowest address of a mirror reserve (R42). -/
def reserveBase (code : Nat) : Nat := if code = 1 then 0x00B400000000 else 0x007800000000

/-- The ports of a job image as LOAD will set them: the role of a port, AUX included. -/
def jobRole (ports : List (W64 × W64)) (aux : Option Nat) (p : Nat) : Nat :=
  if aux = some p then 6 else fld (ports.getD p (0, 0)).1 0 3

def State.hasPartner (s : State) : Bool := resReserve s.resHdr ≠ 0 && (s.portOf 3).isSome
def State.hasStripe (s : State) : Bool := resK s.resHdr ≠ 0

/-! ### Protected tensors (R416, R418) -/

def ptClass (e : List W64) : Nat := fld (wd e 0) 12 3
def ptUpd (e : List W64) : Nat := fld (wd e 0) 15 2
def ptBuf (e : List W64) (b : Nat) : Nat := fld (wd e (1 + b)) 0 48
def ptSize (e : List W64) : Nat := fld (wd e 3) 0 48
def ptBranch (e : List W64) : Nat := fld (wd e 4) 0 6
def ptLayer (e : List W64) : Nat := fld (wd e 4) 16 16
def ptChg (e : List W64) : Nat := fld (wd e 4) 40 8

/-- Class codes (R416). -/
def clsM : Nat := 1
def clsS : Nat := 2
def clsMS : Nat := 3
def clsN : Nat := 4
def mirrored (c : Nat) : Bool := c = clsM || c = clsMS
def striped (c : Nat) : Bool := c = clsS || c = clsMS

def State.prots (s : State) : List (List W64) :=
  match s.job with
  | some j => j.prot
  | none => []

def State.branchWord (s : State) (b : Nat) : W64 :=
  match s.job with
  | some j => j.branch.getD b 0
  | none => 0

def brMb (w : W64) : Nat := fld w 0 13
def brGacc (w : W64) : Nat := fld w 16 9
def brNmbf (w : W64) : Nat := fld w 32 9

/-- A branch updates at a step (R29, R30). -/
def brUpdates (w : W64) (step : Nat) : Bool := brGacc w ≠ 0 && step % brGacc w = 0

/-- The update number u(N) (R418), and whether step N updates the tensor. -/
def State.updNo (s : State) (e : List W64) (step : Nat) : Nat :=
  if ptUpd e = 0 then step else if ptUpd e = 1 then step / max 1 (brGacc (s.branchWord (ptBranch e))) else 0
def State.updates (s : State) (e : List W64) (step : Nat) : Bool :=
  ptUpd e = 0 || (ptUpd e = 1 && brUpdates (s.branchWord (ptBranch e)) step)

/-- The buffer that the update of step N writes. -/
def State.updBuf (s : State) (e : List W64) (step : Nat) : Nat := s.updNo e step % 2

/-- The buffer that holds the committed value when `next` is the first step after it (R418). -/
def State.heldBuf (s : State) (e : List W64) (next : Nat) : Nat :=
  if ptUpd e = 2 then 0
  else if s.updates e next then (s.updNo e next + 1) % 2 else s.updNo e next % 2

def State.heldAddr (s : State) (e : List W64) (next : Nat) : Nat := ptBuf e (s.heldBuf e next)

def State.glbValid (s : State) : Bool := bit s.res.regs.commitGlb 48
def State.glbStep (s : State) : Nat := fld s.res.regs.commitGlb 0 48
def State.firstStep (s : State) : Nat := fld (s.jobWord 3) 0 48

/-- The step after the last global commit recorded here, or the first step. -/
def State.nextStep (s : State) : Nat := if s.glbValid then s.glbStep + 1 else s.firstStep

/-- The effective class of an entry. -/
def State.cls (s : State) (i : Nat) : Nat := s.res.classes.getD i clsN

/-- The class AUTO takes, and every other class, before the shared-feed rule (R421). -/
def autoClass (h : List W64) (partner stripe : Bool) (e : List W64) : Nat :=
  if ptClass e ≠ 0 then ptClass e
  else if !partner && !stripe then clsN
  else
    let m := ptUpd e = 2 || ptSize e < resSmall h || ptChg e < resChg h
    if m && partner then clsM else if !m && stripe then clsS else if partner then clsM else clsS

/-! ### The tally (R446–R449) -/

/-- CRC-32C (Castagnoli), reflected polynomial 0x82F63B78 (R448; log entry 31). -/
def crcBit : Nat → Nat → Nat
  | 0, c => c
  | n + 1, c => crcBit n (if c % 2 = 1 then (c / 2) ^^^ 0x82F63B78 else c / 2)

def crc32c (bs : List Byte) : Nat :=
  (bs.foldl (fun c b => crcBit 8 (c ^^^ b.toNat)) 0xFFFFFFFF) ^^^ 0xFFFFFFFF

/-- The first page of the collective pool, as an address (R650). -/
def State.poolBase (s : State) : Nat :=
  match s.job with
  | some j => fld (wd j.hdr 6) 21 19 * 0x200000
  | none => 0

def State.tallySlot (s : State) (seq : Nat) : Nat := s.poolBase + 64 * (seq % 65536)
def State.head (s : State) : Nat := s.res.regs.tally.toNat

/-- Entries of steps after this one are kept (R447); none: all of them. -/
def State.keepAfter (s : State) : Option Nat :=
  if s.hasStripe then if bit s.res.regs.snap 48 then some (fld s.res.regs.snap 0 48) else none
  else if s.glbValid then some s.glbStep else none

/-- The next entry would overwrite a kept one (R447). -/
def State.tallyBlocked (s : State) : Bool :=
  65536 ≤ s.head && match s.keepAfter with
    | none => true
    | some k => k < fld (s.wordAt (s.tallySlot s.head)) 16 48

/-- A MIRROR packet to the partner (R433). -/
def mkMirror (idx buf : Nat) (last fill : Bool) (step addr : Nat) (body : List Byte) : Packet :=
  mkPacket ptMIRROR vcRES 0 idx addr (buf + 2 * b2n last + 4 * b2n fill) 0 ((step % 65536) * 65536) body

/-- Paired with a living partner (RES_STS.PARTNER). -/
def State.partnerUp (s : State) : Bool :=
  s.hasPartner && s.res.pair.addrs && match s.portOf 3 with
    | some p => !(s.res.lost.contains p)
    | none => false

def State.sendMirror (s : State) (k : Packet) : State :=
  match s.portOf 3 with
  | some p => if s.inSvc p then s.send p k else s
  | none => s

/-- Write an entry at HEAD, and into the partner's copy (R432). -/
def State.putEntry (s : State) (e : List W64) : State :=
  let ws := [wd e 0, s.res.regs.tally, BitVec.ofNat 64 s.now, wd e 3, wd e 4, wd e 5, wd e 6]
  let ws := ws ++ [BitVec.ofNat 64 (crc32c (wordsBytes ws))]
  let a := s.tallySlot s.head
  let off := a - s.poolBase
  let step := s.nextStep
  let s := s.writeWords 0 a ws
  let s := { s with res := { s.res with regs := { s.res.regs with tally := s.res.regs.tally + 1 } } }
  if s.partnerUp then
    s.sendMirror (mkMirror 0xFFF 0 false false step (reserveBase (resReserve s.resHdr) + 0x10000 + off)
      (wordsBytes ws))
  else s

/-- Record an entry, or let it wait while the tally is full (R447). -/
def State.tallyW (s : State) (e : List W64) : State :=
  if s.job.isNone then s
  else if !s.res.pending.isEmpty || s.tallyBlocked then
    { s with res := { s.res with pending := s.res.pending ++ [e] } }
  else s.putEntry e

/-- Entries that waited are written as room appears. -/
def State.drainTally : Nat → State → State
  | 0, s => s
  | n + 1, s =>
    match s.res.pending with
    | [] => s
    | e :: rest =>
      if s.tallyBlocked then s
      else State.drainTally n ({ s with res := { s.res with pending := rest } }.putEntry e)

def State.unblockTally (s : State) : State := State.drainTally (s.res.pending.length + 1) s

/-- The next entry must wait, and what needs it with it (R447); RES_STS.TALLY_FULL reads this while a job is loaded. -/
def State.tallyWaits (s : State) : Bool := !s.res.pending.isEmpty || s.tallyBlocked

/-- An entry of the given kind. -/
def State.tally (s : State) (kind step : Nat) (agent branch layer status : Nat) (v0 v1 v2 : W64) : State :=
  s.tallyW [put 0 8 kind ||| put 8 4 1 ||| put 16 48 step, 0, 0,
    put 0 12 agent ||| put 16 6 branch ||| put 32 16 layer ||| put 48 8 status, v0, v1, v2]

/-! ### The fault record (R477) -/

/-- Record a fault in RES_FAULT; vector 3 when VALID becomes 1. -/
def State.resFault (s : State) (agent status : Nat) : State :=
  let r := s.res.regs
  if bit r.fault 24 then { s with res := { s.res with regs := { r with fault := bumpFld r.fault 28 4 1 } } }
  else
    { s with res := { s.res with regs := { r with
      fault := put 0 12 agent ||| put 16 8 status ||| put 24 1 1 ||| put 32 32 s.nextStep } } }.raise 3

def State.resBits (s : State) (m : W64) (on : Bool) : State :=
  { s with res := { s.res with regs := { s.res.regs with
    stsBits := if on then s.res.regs.stsBits ||| m else s.res.regs.stsBits &&& ~~~m } } }
def State.resCount (s : State) (lo n : Nat) : State :=
  { s with res := { s.res with regs := { s.res.regs with cnt := bumpFld s.res.regs.cnt lo 16 n } } }

end Sys2Proof.Machine
end

