-- ==== Sys2Proof/Machine/Collective.lean ====
section
/-!
DEFINITION. Sys2Proof/Machine/Collective.lean: the collective engine (R371–R409): READY, instances and their windows,
GATHER and RS_AG, replay of overflowed chunks, deadlines and backups, completion and release.
-/
namespace Sys2Proof.Machine

/-! ### What a plan says on this device (R376–R379) -/

def State.planP (s : State) (n : Nat) : List W64 := (s.planWords n).getD []
def State.planRanks (s : State) (n : Nat) : List Nat :=
  match s.job with
  | some j => j.groups.getD (planGroup (s.planP n)) []
  | none => []
def State.planG (s : State) (n : Nat) : Nat := (s.planRanks n).length
def State.planN (s : State) (n : Nat) : Nat := s.planG n - planNback (s.planP n)
/-- This member's index in the group. -/
def State.planMe (s : State) (n : Nat) : Nat := ((s.planRanks n).findIdx? (· = s.rank)).getD 0
/-- The slot a member supplies (R377). -/
def State.planSlot (s : State) (n idx : Nat) : Nat := if idx < s.planN n then idx else idx - s.planN n
def State.planPair (s : State) (n : Nat) : Bool := planMode (s.planP n) = 1
def State.planRsAg (s : State) (n : Nat) : Bool := planAlg (s.planP n) = 1

/-- Bytes of a slot of the sum view, and where a chunk's view starts. -/
def State.sumUnit (s : State) (n : Nat) : Nat := if (s.planTensor n 1).format = .pair then 8 else 4
def State.chunkAddr (s : State) (n c : Nat) : Nat := (s.planTensor n 1).base + 4096 * s.sumUnit n * c

/-- The ring port of a chunk (R378). -/
def State.ringPort (s : State) (c : Nat) : Option Nat := s.portOf (if c % 2 = 0 then 4 else 5)

/-- A buffer address that names a protected tensor stands for the buffer a step uses (R418; log entry 34). -/
def State.bufOf (s : State) (base : Nat) (pick : List W64 → Nat) : Nat :=
  match s.prots.find? fun e => ptBuf e 0 = base || (ptUpd e ≠ 2 && ptBuf e 1 = base) with
  | some e => ptBuf e (pick e)
  | none => base
def State.curBase (s : State) (base step : Nat) : Nat := s.bufOf base fun e => s.heldBuf e step
def State.newBase (s : State) (base step : Nat) : Nat := s.bufOf base fun e => s.updBuf e step

/-- Where a chunk's exponent history lies in a buffer. -/
def State.histAddr (s : State) (n c base : Nat) : Nat :=
  let t := { s.planTensor n 3 with base := base }
  t.lineAddr c 0 0 0 + t.elemBit c 0 / 8

/-- Read FP32 slots of a chunk; an uncorrectable unit is consumed (R269). -/
def State.readSlots (s : State) (a cnt : Nat) : List W32 × State :=
  let vs := leW32 cnt (s.moveBytes a (4 * cnt))
  let s := s.corrected a (4 * cnt)
  match s.ueIn a (4 * cnt) with
  | some u => (vs, s.consumeUE 0 u)
  | none => (vs, s)

/-! ### Instances (R374, R386) -/

def State.inst (s : State) (plan step : Nat) : Option Inst :=
  s.col.insts.find? fun x => x.plan = plan && x.step = step
def State.setInst (s : State) (x : Inst) : State :=
  { s with col := { s.col with
    insts := if s.col.insts.any fun y => y.plan = x.plan && y.step = x.step then
        s.col.insts.map fun y => if y.plan = x.plan && y.step = x.step then x else y
      else s.col.insts ++ [x] } }
def State.modInst (s : State) (plan step : Nat) (g : Inst → Inst) : State :=
  match s.inst plan step with
  | some x => s.setInst (g x)
  | none => s

/-- The steps a plan's packets and descriptors may name (R373, R383): that of its open instance, or the next to be
committed, and the one after. -/
def State.planSteps (s : State) (n : Nat) : Nat × Nat :=
  let low := s.col.insts.foldl (fun (m : Option Nat) x =>
    if x.plan ≠ n then m else match m with
      | some k => some (min k x.step)
      | none => some x.step) none
  let b := low.getD s.nextStep
  (b, b + 1)

def State.planStep16 (s : State) (n v : Nat) : Option Nat :=
  let (a, b) := s.planSteps n
  if a % 65536 = v then some a else if b % 65536 = v then some b else none

def poolNeedOne (pair : Bool) : Nat := if pair then 32768 else 57408

/-- Bytes of windows of a plan that are homed on a stack (R378, R386). -/
def State.poolNeed (s : State) (n st : Nat) : Nat :=
  ((List.range (s.planChunks n)).filter fun c => (stackOf (s.chunkAddr n c)).1 = st).length * poolNeedOne (s.planPair n)

/-- Bytes of the pool, from its fourth page, that lie on a stack (R386). -/
def poolCap (base pages st : Nat) : Nat :=
  4096 * ((List.range ((pages - 3) * 512)).filter fun i => (stackOf (base + 0x600000 + 4096 * i)).1 = st).length

def State.poolPages (s : State) : Nat := fld (s.jobWord 6) 40 19

/-- There is room for an instance's windows beside those allocated. -/
def State.poolRoom (s : State) (n : Nat) : Bool :=
  let open_ := s.col.insts.filter (·.alloc)
  open_.isEmpty || (List.range 20).all fun st =>
    (open_.foldl (fun k x => k + s.poolNeed x.plan st) 0) + s.poolNeed n st ≤ poolCap s.poolBase s.poolPages st

/-- The window exponent of a chunk (R387), with what reading its history finds. -/
def State.windowE (s : State) (n step c : Nat) : Int × State :=
  if s.planPair n then (0, s)
  else
    let a := s.histAddr n c (s.curBase (s.planTensor n 3).base step)
    let (vs, s) := s.readSlots a 1
    let prev := sext 9 (fld (vs.getD 0 0) 0 9)
    (if prev = -256 then planEinit (s.planP n) else min (prev + 9) 128, s)

/-! ### Sending (R381, R407) -/

/-- The age of the instance a packet belongs to: its start, or after every start. -/
def State.raccAge (s : State) (k : Packet) : Nat :=
  if k.ptype ≠ ptRACC then 0
  else match s.col.insts.find? fun x => x.plan = k.fA % 1024 && x.step % 65536 = k.fC / 65536 with
    | some x => match x.started with
      | some t => t + 1
      | none => 2 ^ 64
    | none => 2 ^ 64

/-- Queue a RACC packet behind those of older instances. -/
def State.queueRacc (s : State) (p : Nat) (k : Packet) : State :=
  let age := s.raccAge k
  (s.updPort p fun x => { x with txq := SMap.upd [] x.txq vcGRAD fun l =>
    let (a, b) := l.span fun t => s.raccAge t.pkt ≤ age
    a ++ [{ pkt := k }] ++ b }).pump p

/-- Send one RACC packet on a chunk's ring port. `flags`: EMAX, OVF and NONFIN of C. -/
def State.sendRacc (s : State) (plan step kind slot hops c off : Nat) (flags : Nat) (body : List Byte) : State :=
  match s.ringPort c with
  | none => s
  | some p =>
    if s.inSvc p then
      let k := mkPacket ptRACC vcGRAD 0 plan (s.chunkAddr plan c + off) (slot + 256 * hops)
        (hdrTag (s.planP plan)) (kind + flags + (step % 65536) * 65536) body
      s.queueRacc p k
    else s

/-- A message of the collective engine (R385). -/
def colMsg (kind plan step slot hops : Nat) (emax : Int) (chunks : List Nat) : Packet :=
  let w := put 0 10 plan ||| put 10 16 step ||| put 26 8 slot ||| put 34 8 hops ||| put 42 9 (wrapNat 9 emax)
  mkPacket ptMSG vcCTL 0 kind 0 0 0 0 (leBytes 8 w.toNat ++
    (List.range 14).flatMap fun i => leBytes 4 (chunks.getD i 0xFFFFFFFF))

def State.sendOn (s : State) (p : Option Nat) (k : Packet) : State :=
  match p with
  | some p => if s.inSvc p then s.send p k else s
  | none => s

/-! ### Entering contributions (R388, R389, R394) -/

/-- Add to COL_CNT's or COL_DUP's field. -/
def State.colCount (s : State) (lo len n : Nat) : State :=
  { s with col := { s.col with cnt := bumpFld s.col.cnt lo len n } }
def State.dupCount (s : State) (n : Nat) : State :=
  { s with col := { s.col with dup := bumpFld s.col.dup 0 32 n } }

/-- Offer the values of a chunk. The Bool says that the base die has refused one, because its element already held 256
contributions (R82). -/
def Inst.offer (x : Inst) (pair : Bool) (c : Nat) (vs : List W32) : Inst × Bool :=
  let r := vs.foldl (fun (a : Inst × Bool × Nat) v =>
    let (y, no) := if pair then (a.1.enterPair a.2.2 v, false) else a.1.enterWindow a.2.2 v
    (y, a.2.1 || no, a.2.2 + 1)) (x, false, 4096 * c)
  (r.1, r.2.1)

/-- A refused contribution (R82): the element stays as it is, and LAST_ERR holds BOUNDS; where a refusal of a reduction's
contribution shows the manual does not say (log entry 96, DESIGN CHOICE). -/
def State.colRefused (s : State) (no : Bool) : State :=
  if no then { s with col := { s.col with lastErr := Status.bounds.code } } else s

def Inst.mark (x : Inst) (c slot : Nat) : Inst := x.updChunk c fun h => { h with entered := insNat h.entered slot }

/-- The values a member contributes to a chunk (R388, R397, R399): the chunk of GRAD, or the decoded record with the
record itself. -/
def State.ownValues (s : State) (plan step c : Nat) (small : Bool) : List W32 × Option Record × State :=
  let p := s.planP plan
  let n := s.chunkLen plan c
  let (gs, s) := s.readSlots (s.newBase (s.planTensor plan 0).base step + 16384 * c) n
  if planComp p = 0 || small then (gs, none, s)
  else
    let (es, s) := s.readSlots (s.curBase (s.planTensor plan 2).base step + 16384 * c) n
    let vs := List.zipWith fAdd gs es
    let r := mkRecord (planComp p) (planKsel p) (planValFp32 p) c vs (Config.nonfinScale plan step c)
    (r.decode n, some r, s)

/-- Error feedback: the other buffer of EF takes what a record did not carry (R397, R400). R35 keeps firmware's updates of a
step behind the global commit before it; whether the engine's own writes to EF wait as well the manual does not say: the
model writes them when the instance starts (log entry 95, DESIGN CHOICE). -/
def State.writeEF (s : State) (plan step c : Nat) (r : Record) : State :=
  let n := s.chunkLen plan c
  let base := (s.planTensor plan 2).base
  let (es, s) := s.readSlots (s.curBase base step + 16384 * c) n
  let (gs, s) := s.readSlots (s.newBase (s.planTensor plan 0).base step + 16384 * c) n
  let out := if r.nonfin then es else List.zipWith fSub (List.zipWith fAdd gs es) (r.decode n)
  s.write 0 (s.newBase base step + 16384 * c) (w32Bytes out)

/-- Enter this member's own contribution into a chunk's window; the record, if the plan compresses, is returned. -/
def State.enterOwn (s : State) (plan step c : Nat) : Option Record × State :=
  match s.inst plan step with
  | none => (none, s)
  | some x =>
    let (vs, r, s) := s.ownValues plan step c x.small
    let nf := match r with
      | some r => r.nonfin
      | none => false
    let (x, no) := if nf then (x.updChunk c fun h => { h with nonfin := true }, false)
      else x.offer (s.planPair plan) c vs
    let s := s.colRefused no
    let x := (x.updChunk c fun h => { h with own := true }).mark c (s.planSlot plan (s.planMe plan))
    (r, s.setInst x)

/-! ### GATHER -/

/-- Send contributions of this member's chunks: one packet for each FP32 chunk, records packed by parity (R379,
R385, R398). -/
def State.sendOwn (s : State) (plan step : Nat) (chunks : List (Nat × Option Record)) : State :=
  let hops := s.planG plan - 2
  let me := s.planMe plan
  let s := chunks.foldl (fun s x => match x.2 with
    | some _ => s
    | none =>
      let (vs, s) := s.readSlots (s.newBase (s.planTensor plan 0).base step + 16384 * x.1) (s.chunkLen plan x.1)
      s.sendRacc plan step 0 me hops x.1 0 0 (w32Bytes vs)) s
  [0, 1].foldl (fun s par =>
    let rs := chunks.filterMap fun x => match x.2 with
      | some r => if x.1 % 2 = par then some (x.1, r.bytes) else none
      | none => none
    (packRecords rs).foldl (fun s b => s.sendRacc plan step 1 me hops b.1 0 0 b.2) s) s

/-- Every slot of every chunk has been offered. -/
def State.gatherFull (s : State) (x : Inst) (c : Nat) : Bool := s.planN x.plan ≤ (x.chunk c).entered.length

/-- Clear a chunk's window for its replay (R390). -/
def Inst.clearChunk (x : Inst) (c : Nat) (e : Int) : Inst :=
  let x := { x with win := x.win.filter fun w => w.1 / 4096 ≠ c, ovfN := x.ovfN + 1 }
  x.updChunk c fun h => { e := e, emax := h.emax, replay := true }

/-- Replay a GATHER chunk that has overflowed, once every slot has been offered (R390). -/
def State.gatherReplay (s : State) (plan step c : Nat) : State :=
  match s.inst plan step with
  | none => s
  | some x =>
    let h := x.chunk c
    if h.ovf && !h.replay && s.gatherFull x c then
      let me := s.planSlot plan (s.planMe plan)
      let s := (s.setInst (x.clearChunk c (min (h.emax + 9) 128))).colCount 0 16 1
      let s := (s.enterOwn plan step c).2
      (List.range (s.planN plan)).foldl (fun s i =>
        if i = me then s
        else
          let who := SMap.get 0 x.copy i - 1
          s.sendOn (s.ringPort c) (colMsg 0x11 plan step who (s.planG plan - 2) h.emax [c])) s
    else s

/-- Whether a member's copy may fill its slot, choosing it if it is the first (R403): the choice, and the instance. -/
def State.chooseCopy (s : State) (x : Inst) (idx : Nat) : Bool × Bool × Inst × State :=
  let slot := s.planSlot x.plan idx
  let own := slot = s.planSlot x.plan (s.planMe x.plan)
  let cur := SMap.get 0 x.copy slot
  if own then (false, true, x, s)
  else if cur ≠ 0 then (cur = idx + 1, cur ≠ idx + 1, x, s)
  else
    let back := s.planN x.plan ≤ idx
    if back && (x.expired.isNone || x.early.contains idx) then
      (false, false, { x with early := insNat x.early idx }, s)
    else
      let x := { x with copy := SMap.set 0 x.copy slot (idx + 1),
                        backup := if back then x.backup ||| 2 ^ slot else x.backup }
      (true, false, x, if back then s.colCount 32 16 1 else s)

/-- One chunk's contribution from a packet: added once for each slot (R384), while the instance has its windows. -/
def State.gatherEnter (s : State) (plan step c slot : Nat) (put_ : Inst → Inst × Bool) : State :=
  match s.inst plan step with
  | none => s
  | some x =>
    if (x.chunk c).entered.contains slot then s.dupCount 1
    else if x.released then s
    else
      let (y, no) := put_ x
      ((s.colRefused no).setInst (y.mark c slot)).gatherReplay plan step c

/-! ### RS_AG (R379, R388, R390) -/

def granule (pair : Bool) : Nat := if pair then 2048 else 1024
def granBytes (pair : Bool) : Nat := if pair then 8 else 16
/-- Granules of a chunk, and slots of a granule. -/
def State.granules (s : State) (plan c : Nat) : Nat := ceilDiv (s.chunkLen plan c) (granule (s.planPair plan))
def State.granLen (s : State) (plan c g : Nat) : Nat :=
  let k := granule (s.planPair plan)
  min k (s.chunkLen plan c - k * g)

def State.owner (s : State) (plan c : Nat) : Nat := (c / 2) % max 1 (s.planG plan)
/-- The member whose partial sum starts round the ring. -/
def State.firstOf (s : State) (plan c : Nat) : Nat :=
  let g := max 1 (s.planG plan)
  if c % 2 = 0 then (s.owner plan c + 1) % g else (s.owner plan c + g - 1) % g

/-- A granule of a window as a packet body. -/
def Inst.granBody (x : Inst) (pair : Bool) (c g len : Nat) : List Byte :=
  (List.range len).flatMap fun i =>
    let w := SMap.get ({} : WElem) x.win (4096 * c + granule pair * g + i)
    if pair then leBytes 4 w.hi.toNat ++ leBytes 4 w.lo.toNat
    else leBytes 12 (wrapNat 96 w.n) ++ leBytes 2 w.cnt ++ [0, 0]

/-- Add a granule that has come, or take it in place of what is there (R388, R394). The Bool says that an element has
refused a sum that would bring it past 256 contributions (R82). -/
def Inst.granEnter (x : Inst) (pair final : Bool) (c g : Nat) (body : List Byte) : Inst × Bool :=
  (List.range (body.length / granBytes pair)).foldl (fun (a : Inst × Bool) i =>
    let x := a.1
    let slot := 4096 * c + granule pair * g + i
    let b := (body.drop (granBytes pair * i)).take (granBytes pair)
    let el := SMap.get ({} : WElem) x.win slot
    if pair then
      let h := BitVec.ofNat 32 (leNat (b.take 4))
      let l := BitVec.ofNat 32 (leNat (b.drop 4))
      let (hi, lo) := if final then (h, l) else pairAdd2 el.hi el.lo h l
      let x := { x with win := SMap.set {} x.win slot { el with hi := hi, lo := lo } }
      (if (f32 hi).isFinite then x else x.updChunk c fun h => { h with nonfin := true }, a.2)
    else
      let n := sext 96 (leNat (b.take 12))
      let k := leNat ((b.drop 12).take 2)
      if !final && 256 < el.cnt + k then (x, true)
      else ({ x with win := SMap.set {} x.win slot (if final then { el with n := n, cnt := k }
          else { el with n := sext 96 (wrapNat 96 (el.n + n)), cnt := el.cnt + k }) }, a.2)) (x, false)

/-- EMAX, OVF and NONFIN as C carries them. -/
def Chunk.flags (h : Chunk) (pair : Bool) : Nat :=
  (if pair then 0 else wrapNat 9 h.emax * 16 + b2n h.ovf * 8192) + b2n h.nonfin * 16384

def State.sendGran (s : State) (plan step c g kind hops : Nat) : State :=
  match s.inst plan step with
  | none => s
  | some x =>
    let pair := s.planPair plan
    s.sendRacc plan step kind (s.planMe plan) hops c (granule pair * g * s.sumUnit plan) ((x.chunk c).flags pair)
      (x.granBody pair c g (s.granLen plan c g))

/-- A member other than the owner sends on each granule that is ready: its own contribution is in, and so is the
partial sum, unless it is the first. -/
def State.rsForward (s : State) (plan step c : Nat) : State :=
  match s.inst plan step with
  | none => s
  | some x =>
    let h := x.chunk c
    let first := s.firstOf plan c = s.planMe plan
    if !h.own || s.owner plan c = s.planMe plan then s
    else
      ((List.range (s.granules plan c)).filter fun g =>
          !(h.sent.contains g) && (first || h.parts.contains g)).foldl (fun s g =>
        let s := s.sendGran plan step c g (if s.planPair plan then 4 else 2) 0
        s.modInst plan step fun x => x.updChunk c fun h => { h with sent := insNat h.sent g }) s

/-- The owner's turn: once every granule is in, it replays an overflowed chunk, else sends the final sums. -/
def State.rsOwner (s : State) (plan step c : Nat) : State :=
  match s.inst plan step with
  | none => s
  | some x =>
    let h := x.chunk c
    let n := s.granules plan c
    if s.owner plan c ≠ s.planMe plan || !h.own || h.parts.length < n || !h.finals.isEmpty then s
    else if h.ovf && !h.replay then
      let s := (s.setInst (x.clearChunk c (min (h.emax + 9) 128))).colCount 0 16 1
      let s := s.sendOn (s.ringPort c) (colMsg 0x11 plan step 0xFF (s.planG plan - 2) h.emax [c])
      (s.enterOwn plan step c).2
    else
      let s := (List.range n).foldl (fun s g =>
        s.sendGran plan step c g (if s.planPair plan then 5 else 3) (s.planG plan - 2)) s
      s.modInst plan step fun x => x.updChunk c fun h => { h with finals := List.range n }

def State.rsAdvance (s : State) (plan step c : Nat) : State := (s.rsForward plan step c).rsOwner plan step c

/-! ### Start and allocation (R374, R386, R387) -/

/-- An instance that has started and has its windows enters and sends its own contribution. -/
def State.launch (s : State) (plan step : Nat) : State :=
  match s.inst plan step with
  | none => s
  | some x =>
    let n := s.planChunks plan
    let (rs, s) := (List.range n).foldl (fun (a : List (Nat × Option Record) × State) c =>
      let (r, s) := a.2.enterOwn plan step c
      let s := match r with
        | some r => s.writeEF plan step c r
        | none => s
      ((c, r) :: a.1, s)) ([], s)
    if s.planRsAg plan then (List.range n).foldl (fun s c => s.rsAdvance plan step c) s
    else
      let backup := s.planN plan ≤ s.planMe plan
      let s := if backup && !x.asked then s else s.sendOwn plan step rs.reverse
      (List.range n).foldl (fun s c => s.gatherReplay plan step c) s

/-- Allocate an instance's windows, or let it wait for pool space (R386). -/
def State.allocInst (s : State) (plan step : Nat) : State :=
  match s.inst plan step with
  | none => s
  | some x =>
    if x.alloc || x.released then s
    else if !s.poolRoom plan then
      if x.waiting then s
      else
        let s := s.setInst { x with waiting := true }
        { s with col := { s.col with dup := bumpFld s.col.dup 32 16 1 } }
    else
      let (hs, s) := (List.range (s.planChunks plan)).foldl (fun (a : List Chunk × State) c =>
        let (e, s) := a.2.windowE plan step c
        ({ e := e } :: a.1, s)) ([], s)
      let small := planComp (s.planP plan) ≠ 0 && s.planSlots plan < s.col.small
      let s := s.setInst { x with alloc := true, waiting := false, chunks := hs.reverse, small := small }
      if x.started.isSome then s.launch plan step else s

/-- The instance of a plan and step, opened if it is not yet. -/
def State.openInst (s : State) (plan step : Nat) : State :=
  if (s.inst plan step).isSome then s else s.setInst { plan := plan, step := step }

/-- NREADY descriptors have been accepted: the instance starts (R374). -/
def State.startInst (s : State) (plan step : Nat) : State :=
  match s.inst plan step with
  | none => s
  | some x =>
    let s := s.setInst { x with started := some s.now }
    if x.alloc then s.launch plan step else s.allocInst plan step

/-! ### READY (R372, R373) -/

def rdPlan (d : List W64) : Nat := fld (wd d 1) 0 10
def rdNplan (d : List W64) : Nat := fld (wd d 1) 16 4
def rdStep (d : List W64) : Nat := fld (wd d 2) 0 48

def readyReserved (d : List W64) : Bool :=
  fld (wd d 0) 12 20 ≠ 0 || fld (wd d 1) 10 6 ≠ 0 || fld (wd d 1) 20 44 ≠ 0 || fld (wd d 2) 48 16 ≠ 0
  || (List.range 5).any fun i => wd d (3 + i) ≠ 0

def State.readyCheck (s : State) (d : List W64) (lfold : Nat) : Status :=
  let ps := (List.range (rdNplan d)).map (rdPlan d + ·)
  let step := rdStep d
  firstFail [
    (rdNplan d = 0 || ps.any fun n => (s.planWords n).isNone, .bounds),
    (ps.any fun n =>
      let (a, b) := s.planSteps n
      (step ≠ a && step ≠ b) || !brUpdates (s.branchWord (planBranch (s.planP n))) step, .bounds),
    (ps.any fun n => match s.inst n step with
      | some x => x.lfolds.contains lfold
      | none => false, .busy),
    (ps.any fun n => match s.inst n step with
      | some x => planNready (s.planP n) ≤ x.lfolds.length
      | none => false, .bounds)]

/-- An accepted READY counts toward each plan it names. -/
def State.readyAccept (s : State) (d : List W64) (lfold : Nat) : State :=
  (List.range (rdNplan d)).foldl (fun s i =>
    let n := rdPlan d + i
    let s := (s.openInst n (rdStep d)).modInst n (rdStep d) fun x => { x with lfolds := insNat x.lfolds lfold }
    match s.inst n (rdStep d) with
    | some x => if x.lfolds.length = planNready (s.planP n) then s.startInst n (rdStep d) else s
    | none => s) s

/-! ### Receiving (R381–R385, R403) -/

def raccKind (k : Packet) : Nat := k.fC % 16
def raccPlan (k : Packet) : Nat := k.fA % 1024
def raccIdx (k : Packet) : Nat := k.fB % 256
def raccHops (k : Packet) : Nat := k.fB / 256

/-- The kinds a plan uses. -/
def planKinds (p : List W64) : List Nat :=
  if planAlg p = 1 then (if planMode p = 1 then [4, 5] else [2, 3])
  else if planComp p = 0 then [0] else [0, 1]

/-- Slots of a granule of a kind, and bytes of a slot in its body. -/
def kindGranule (kind : Nat) : Nat := if kind ≤ 1 then 4096 else if kind ≤ 3 then 1024 else 2048
def kindBytes (kind : Nat) : Nat := if kind ≤ 1 then 4 else if kind ≤ 3 then 16 else 8

/-- Where a packet's granule lies: chunk, first slot within it, slots. -/
def State.raccAt (s : State) (k : Packet) : Nat × Nat × Nat :=
  let n := raccPlan k
  let slot := (k.addr - (s.planTensor n 1).base) / s.sumUnit n
  let c := slot / 4096
  (c, slot % 4096, min (kindGranule (raccKind k)) (s.chunkLen n c - slot % 4096))

def State.raccRecords (s : State) (k : Packet) : List Record :=
  parseRecords (s.chunkLen (raccPlan k)) (k.body.length / 64) k.body

def State.raccCheck (s : State) (k : Packet) : Status :=
  let kind := raccKind k
  let n := raccPlan k
  let p := s.planP n
  let base := (s.planTensor n 1).base
  firstFail [
    (5 < kind, .unsupported),
    ((s.planWords n).isNone, .bounds),
    (!(planKinds p).contains kind, .unsupported),
    (s.planG n ≤ raccIdx k || (s.planStep16 n (k.fC / 65536)).isNone
      || k.addr < base || base + s.sumUnit n * s.planSlots n ≤ k.addr
      || (kind = 1 && (s.raccRecords k).any fun r => s.planChunks n ≤ r.chunk), .bounds),
    ((k.addr - base) % (s.sumUnit n * kindGranule kind) ≠ 0
      || (kind ≠ 1 && k.len ≠ ceilDiv ((s.raccAt k).2.2 * kindBytes kind) 64), .align)]

/-- The instance a checked packet belongs to has no windows and there is no room for them (R386). -/
def State.raccWaits (s : State) (k : Packet) : Bool :=
  if s.raccCheck k ≠ .ok then false
  else
    let n := raccPlan k
    match (s.planStep16 n (k.fC / 65536)).bind (s.inst n) with
    | some x => !x.alloc && !x.released && !s.poolRoom n
    | none => !s.poolRoom n

/-- A GATHER packet: passed on, and added if its copy fills the slot. -/
def State.raccGather (s : State) (k : Packet) (plan step : Nat) : State :=
  let (c, _, n) := s.raccAt k
  let idx := raccIdx k
  let s := if raccHops k = 0 then s
    else s.sendRacc plan step (raccKind k) idx (raccHops k - 1) c 0 0 k.body
  match s.inst plan step with
  | none => s
  | some x =>
    let (add, late, x, s) := s.chooseCopy x idx
    let s := s.setInst x
    let slot := s.planSlot plan idx
    if late then s.colCount 48 16 1
    else if !add then s
    else if raccKind k = 0 then
      s.gatherEnter plan step c slot fun x => x.offer (s.planPair plan) c (leW32 n k.body)
    else (s.raccRecords k).foldl (fun s r =>
      s.gatherEnter plan step r.chunk slot fun x =>
        if r.nonfin then (x.updChunk r.chunk fun h => { h with nonfin := true }, false)
        else x.offer (s.planPair plan) r.chunk (r.decode (s.chunkLen plan r.chunk))) s

/-- A partial or final sum (RS_AG). -/
def State.raccSum (s : State) (k : Packet) (plan step : Nat) : State :=
  let (c, off, n) := s.raccAt k
  let pair := s.planPair plan
  let g := off / granule pair
  let final := raccKind k % 2 = 1
  let s := if final && raccHops k ≠ 0 then
      s.sendRacc plan step (raccKind k) (raccIdx k) (raccHops k - 1) c (off * s.sumUnit plan)
        (k.fC % 65536 / 16 * 16) k.body
    else s
  match s.inst plan step with
  | none => s
  | some x =>
    let h := x.chunk c
    if (if final then h.finals else h.parts).contains g then s.dupCount 1
    else if x.released then s
    else
      let (x, no) := x.granEnter pair final c g (k.body.take (granBytes pair * n))
      let s := s.colRefused no
      let em := sext 9 (k.fC / 16)
      let x := x.updChunk c fun h => { h with
        emax := if pair then h.emax else max h.emax em,
        ovf := h.ovf || (!pair && k.fC.testBit 13), nonfin := h.nonfin || k.fC.testBit 14,
        parts := if final then h.parts else insNat h.parts g,
        finals := if final then insNat h.finals g else h.finals }
      (s.setInst x).rsAdvance plan step c

/-- Perform a RACC packet (R383–R388). -/
def State.rxRacc (s : State) (p : Nat) (k : Packet) : State :=
  match s.raccCheck k with
  | .ok =>
    let n := raccPlan k
    match s.planStep16 n (k.fC / 65536) with
    | none => s
    | some step =>
      let s := (s.openInst n step).allocInst n step
      if raccKind k ≤ 1 then s.raccGather k n step else s.raccSum k n step
  | st => s.rxRefuse p k st true

/-! ### Messages (R385, R390, R401, R404) -/

def msgWord (k : Packet) : W64 := BitVec.ofNat 64 (leNat (k.body.take 8))
def msgChunks (k : Packet) : List Nat :=
  ((List.range 14).map fun i => leNat ((k.body.drop (8 + 4 * i)).take 4)).filter (· ≠ 0xFFFFFFFF)

/-- The step a message means: also one committed here and not yet globally. -/
def State.msgStep (s : State) (n v : Nat) : Option Nat :=
  if s.nextStep % 65536 = v then some s.nextStep else s.planStep16 n v

/-- Pass a message on round the ring, out of the other ring port. -/
def State.msgOnward (s : State) (p : Nat) (k : Packet) : State :=
  let w := msgWord k
  let hops := fld w 34 8
  if hops = 0 then s
  else
    let out := s.portOf (if (s.port p).role = 4 then 5 else 4)
    s.sendOn out (mkPacket ptMSG vcCTL 0 (k.fA % 256) 0 0 0 0
      (leBytes 8 (setFld w 34 8 (hops - 1)).toNat ++ k.body.drop 8))

/-- BACKUP_REQ (R404): the backup of the named slot sends its contribution, once. -/
def State.rxBackupReq (s : State) (p : Nat) (k : Packet) : State :=
  let w := msgWord k
  let n := fld w 0 10
  if (s.planWords n).isNone || s.planMe n ≠ s.planN n + fld w 26 8 then s.msgOnward p k
  else match s.msgStep n (fld w 10 16) with
  | none => s
  | some step =>

      let s := s.openInst n step
      match s.inst n step with
      | none => s
      | some x =>
        if x.asked then s
        else
          let s := s.setInst { x with asked := true }
          if x.started.isSome && (x.alloc || x.released) then
            let (rs, s) := (List.range (s.planChunks n)).foldl (fun (a : List (Nat × Option Record) × State) c =>
              let (_, r, s) := a.2.ownValues n step c x.small
              ((c, r) :: a.1, s)) ([], s)
            s.sendOwn n step rs.reverse
          else s

/-- An RS_AG chunk runs again at the exponent a RESEND gives (R390). -/
def State.rsRestart (s : State) (n step c : Nat) (emax : Int) : State :=
  match s.inst n step with
  | none => s
  | some x =>
    if !x.alloc || s.planChunks n ≤ c then s
    else
      let s := (s.setInst (x.clearChunk c (min (emax + 9) 128))).colCount 0 16 1
      let s := if x.started.isSome then (s.enterOwn n step c).2 else s
      s.rsAdvance n step c

/-- RESEND (R390, R401). -/
def State.rxResend (s : State) (p : Nat) (k : Packet) : State :=
  let w := msgWord k
  let n := fld w 0 10
  let slot := fld w 26 8
  let s := if (s.planWords n).isNone || slot = 0xFF || slot ≠ s.planMe n then s.msgOnward p k else s
  match (if (s.planWords n).isSome then s.msgStep n (fld w 10 16) else none) with
  | none => s
  | some step =>
    let cs := (msgChunks k).filter (· < s.planChunks n)
    if slot = 0xFF then
      if s.planRsAg n then cs.foldl (fun s c => s.rsRestart n step c (sext 9 (fld w 42 9))) s else s
    else if slot ≠ s.planMe n then s
    else
      let small := planComp (s.planP n) ≠ 0 && s.planSlots n < s.col.small
      let ran := match s.inst n step with
        | some x => x.started.isSome
        | none => fld (SMap.get 0 s.col.planRec (8 * n)) 0 48 = step
      if !ran || s.planRsAg n then s
      else
        let (rs, s) := cs.foldl (fun (a : List (Nat × Option Record) × State) c =>
          let (_, r, s) := a.2.ownValues n step c small
          ((c, r) :: a.1, s)) ([], s)
        s.sendOwn n step rs.reverse

/-! ### Deadlines (R403–R405) -/

/-- A slot for which no copy has been chosen. -/
def State.emptySlots (s : State) (x : Inst) : List Nat :=
  (List.range (s.planN x.plan)).filter fun i =>
    i ≠ s.planSlot x.plan (s.planMe x.plan) && SMap.get 0 x.copy i = 0

def opBackupDeadline (s : State) (plan step : Nat) : State :=
  let d := planDeadline (s.planP plan)
  match s.inst plan step with
  | none => s
  | some x => match x.started, x.expired with
    | some t, none =>
      if d = 0 || x.done then s
      else
        let s := { s with now := max s.now (t + d) }
        let s := s.setInst { x with expired := some s.now }
        if s.planRsAg plan then s
        else
          ((s.emptySlots x).filter (· < planNback (s.planP plan))).foldl (fun s i =>
            s.sendOn (s.portOf 4) (colMsg 0x10 plan step i (s.planG plan - 2) 0 [])) s
    | _, _ => s

/-! ### Completion and release (R408, R409) -/

/-- Every chunk has every slot entered and every replay is done. -/
def State.instFull (s : State) (x : Inst) : Bool :=
  x.alloc && x.started.isSome && (List.range (s.planChunks x.plan)).all fun c =>
    let h := x.chunk c
    if s.planRsAg x.plan then h.own && s.granules x.plan c ≤ h.finals.length
    else s.gatherFull x c && (h.replay || !h.ovf)

/-- The plan record, and the REDUCE entry of an instance that used a backup or did not end with OK. -/
def State.endInst (s : State) (x : Inst) (st : Status) : State :=
  let p := s.planP x.plan
  let nf := ((List.range x.chunks.length).filter fun c => (x.chunk c).nonfin).length
  let s := (s.setInst { x with done := true, status := st.code, nonfinN := nf }).colCount 16 16 nf
  let ws := [put 0 48 x.step ||| put 48 8 st.code ||| put 56 1 (b2n x.small), put 0 32 x.ovfN ||| put 32 32 nf,
    put 0 15 x.backup, BitVec.ofNat 64 (x.started.getD 0), BitVec.ofNat 64 s.now, BitVec.ofNat 64 x.bytes, 0, 0]
  let s := { s with col := { s.col with
    planRec := (List.range 8).foldl (fun m i => SMap.set 0 m (8 * x.plan + i) (wd ws i)) s.col.planRec,
    lastErr := if st = .ok || st = .windowOverflow then s.col.lastErr else st.code } }
  if st ≠ .ok || x.backup ≠ 0 then
    s.tally 0x30 x.step 0 (planBranch p) (planLayer p) st.code (BitVec.ofNat 64 x.plan) (put 0 15 x.backup) 0
  else s

/-- REDUCE_COMPLETE. HIST is written now, whatever the global commit of the step before (log entry 95, DESIGN CHOICE). -/
def opReduceComplete (s : State) (plan step : Nat) : State :=
  match s.inst plan step with
  | none => s
  | some x =>
    if x.done || !s.instFull x then s
    else
      let s := if s.planPair plan then s
        else
          let base := s.newBase (s.planTensor plan 3).base step
          (List.range x.chunks.length).foldl (fun s c =>
            s.write 0 (s.histAddr plan c base) (leBytes 4 (wrapNat 9 (x.chunk c).emax))) s
      let slot := planDoneSlot (s.planP plan)
      let s := x.lfolds.foldl (fun s n => s.evtAddLogical n slot 1) s
      s.endInst x (if x.ovfN = 0 then .ok else .windowOverflow)

/-- REDUCE_TIMEOUT (R405): a slot is still empty DEADLINE ticks after the expiry; the job stops. -/
def opReduceTimeout (s : State) (plan step : Nat) : State :=
  match s.inst plan step with
  | none => s
  | some x => match x.expired with
    | none => s
    | some t =>
      if x.done || (if s.planRsAg plan then s.instFull x else (s.emptySlots x).isEmpty) then s
      else
        let s := { s with now := max s.now (t + planDeadline (s.planP plan)) }
        let s := s.endInst x .timeout
        { s with due := s.due ++ [Due.fault 0 Status.timeout.code plan true] }

/-- INSTANCE_ALLOCATE: an instance that waits for pool space, the one to wait first, gets its windows. -/
def opInstanceAllocate (s : State) (plan : Nat) : State :=
  match s.col.insts.find? fun x => x.plan = plan && x.waiting with
  | some x => s.allocInst plan x.step
  | none => s

/-- Room has come back to the pool: a port that waits in RESET for it goes on (R361). -/
def State.poolFreed (s : State) : State :=
  if (List.range 6).any fun p => (s.port p).st = .reset then { s with due := s.due ++ [.awake] } else s

/-- A layer commits for a step: its instances are released, and their windows return to the pool (R409). What they have
counted is kept until the step commits globally: until then R373, R384, R385 and R403 may still ask for it. -/
def State.releaseLayer (s : State) (branch layer step : Nat) : State :=
  { s with col := { s.col with insts := s.col.insts.map fun (x : Inst) =>
    if x.step = step && planBranch (s.planP x.plan) = branch && planLayer (s.planP x.plan) = layer then
      { x with released := true, alloc := false, waiting := false, win := [] }
    else x } }.poolFreed

/-- A step has committed globally: nothing of its instances is kept. -/
def State.forgetInsts (s : State) (step : Nat) : State :=
  { s with col := { s.col with insts := s.col.insts.filter fun x => step < x.step } }.poolFreed

/-- The job resumes: an instance that a packet opened while it was stopped stays for the resume step and the step after it
alone (R37, R374). -/
def State.keepInsts (s : State) (step : Nat) : State :=
  { s with col := { s.col with insts := s.col.insts.filter fun x => x.step = step || x.step = step + 1 } }.poolFreed

/-- A stop abandons every open instance (R409, R458). -/
def State.abandonInsts (s : State) : State := { s with col := { s.col with insts := [] } }.poolFreed


end Sys2Proof.Machine
end

