-- ==== Sys2Proof/Machine/Mirror.lean ====
section
/-!
DEFINITION. Sys2Proof/Machine/Mirror.lean: effective classes (R421, R435–R437), pairing and the mirror reserve
(R430, R431), what is sent to the partner (R432, R433), and stripe snapshots (R439–R444).
-/
namespace Sys2Proof.Machine

/-! ### The layer table (R651) -/

def State.layerTab (s : State) : List (List W64) :=
  match s.job with
  | some j => j.layers
  | none => []

def lyBranch (w : List W64) : Nat := fld (wd w 0) 0 6
def lyLayer (w : List W64) : Nat := fld (wd w 0) 16 16
def lyPermit (w : List W64) : Nat := fld (wd w 0) 32 6
def lyNupd (w : List W64) : Nat := fld (wd w 0) 48 9
def lyFolds (w : List W64) : List Nat := (List.range 320).filter fun n => bit (wd w (1 + n / 64)) (n % 64)

/-- Protected entries of a layer, by index. -/
def State.entsOf (s : State) (branch layer : Nat) : List Nat :=
  (List.range s.prots.length).filter fun i =>
    let e := s.prots.getD i []
    ptBranch e = branch && ptLayer e = layer

def State.ent (s : State) (i : Nat) : List W64 := s.prots.getD i []

/-! ### Effective classes -/

def State.feedGrp (s : State) : Nat := fld (wd s.cfg.settings 1) 32 16

/-- FEED_GRP of the partner's handshake. -/
def State.peerFeed (s : State) : Nat :=
  match s.portOf 3 with
  | some p => hsFeed (s.port p).peer
  | none => 0

/-- The FEED_GRP fields of the pair's handshakes name one feed (R435). -/
def State.feedsMeet (s : State) : Bool :=
  s.hasPartner && (s.peerFeed = s.feedGrp || s.peerFeed = 0 || s.feedGrp = 0)

/-- The pair shares a feed, as pairing has found (R435). -/
def State.sharedFeed (s : State) : Bool := s.hasPartner && s.res.pair.shared

/-- R421 and R436. -/
def effClass (h : List W64) (partner stripe shared : Bool) (e : List W64) : Nat :=
  let c := autoClass h partner stripe e
  if shared && stripe && c = clsM then clsMS else c

def stsFEED : W64 := put 3 1 1
def stsOVERRIDE : W64 := put 4 1 1
def stsNOSPARE : W64 := put 5 1 1
def stsUNPROT : W64 := put 7 1 1

/-- Recompute every effective class. -/
def State.reclass (s : State) (shared : Bool) : State :=
  { s with res := { s.res with
    classes := s.prots.map (effClass s.resHdr s.hasPartner s.hasStripe shared) } }

/-- The class record (R446). -/
def State.writeClasses (s : State) : State :=
  s.write 0 (s.poolBase + 0x400000) (s.res.classes.map fun c => BitVec.ofNat 8 c)

/-! ### Pairing (R430, R431) -/

def State.updPair (s : State) (g : Pairing → Pairing) : State :=
  { s with res := { s.res with pair := g s.res.pair } }

def State.reserve (s : State) : Nat := reserveBase (resReserve s.resHdr)
def pad64K (n : Nat) : Nat := ceilDiv n 65536 * 65536

def State.stripeRanks (s : State) : List Nat :=
  match s.job with
  | some j => j.groups.getD (resSgroup s.resHdr) []
  | none => []
def State.stripeG (s : State) : Nat := s.stripeRanks.length
def State.stripeMe (s : State) : Nat := ((s.stripeRanks.findIdx? (· = s.rank))).getD 0
def State.stripeD (s : State) : Nat := s.stripeG - 1 - resP s.resHdr

/-- The reserve of R430: the pairing area and the tally copy, the stripe slots, the change maps, the mirror area. The manual
gives their order; that the slots stand by owner and then slot, and that a change map takes whole 64-byte units, is log
entry 36. -/
def State.slotsBase (s : State) : Nat := s.reserve + 0x410000
def State.slotSize (s : State) (owner slot : Nat) : Nat := Config.stripeSize s.jobId s.stripeMe owner slot

/-- The slots of this device's stripe region, in order: owner and slot. -/
def State.slotList (s : State) : List (Nat × Nat) :=
  if s.hasStripe then
    ((List.range s.stripeG).filter (· ≠ s.stripeMe)).flatMap fun m => [(m, 0), (m, 1)]
  else []

/-- Where an owner's slot lies here. -/
def State.slotAddr (s : State) (owner slot : Nat) : Nat :=
  (s.slotList.takeWhile (· ≠ (owner, slot))).foldl (fun a x => a + s.slotSize x.1 x.2) s.slotsBase

/-- The bytes of an entry's change map. -/
def mapBytes (e : List W64) : Nat := if ptUpd e = 2 then 0 else ceilDiv (ceilDiv (ptSize e / 64) 8) 64 * 64

/-- Where an entry's change map lies. -/
def State.mapAddr (s : State) (i : Nat) : Nat :=
  (s.prots.take i).foldl (fun a e => a + mapBytes e)
    (s.slotList.foldl (fun a x => a + s.slotSize x.1 x.2) s.slotsBase)

/-- The start of the mirror area. -/
def State.mirrorStart (s : State) : Nat := pad64K (s.mapAddr s.prots.length)

/-- The reserve runs to the end of the interleaved range. -/
def State.mirrorFree (s : State) (copies : List (Nat × Nat × Nat × Nat)) : Nat :=
  copies.foldl (fun a c => max a (max (c.2.2.1 + pad64K c.2.1) (c.2.2.2 + pad64K c.2.1))) s.mirrorStart

/-- The partner's entries from the pairing area: index, size, class. -/
def State.partnerEnts (s : State) : List (Nat × Nat × Nat) :=
  let area := s.bytesAt s.reserve 65536
  (List.range s.res.pair.nprot).map fun i => (i, Config.pairField 0 area i, Config.pairField 1 area i)

/-- Copies placed one after the other from the start of the mirror area. -/
def State.layCopies (s : State) : List (Nat × Nat × Nat × Nat) :=
  (s.partnerEnts.foldl (fun (a : List (Nat × Nat × Nat × Nat) × Nat) e =>
    if mirrored e.2.2 then
      let p := pad64K e.2.1
      (a.1 ++ [(e.1, e.2.1, a.2, a.2 + p)], a.2 + 2 * p)
    else a) ([], s.mirrorStart)).1

/-- Where the pairing area records this device's copy of the partner's entry i: its first buffer in units of 64 KiB, and the
second follows it (the place is log entry 30). -/
def State.keptAddr (s : State) (i : Nat) : Nat := s.reserve + 0xC000 + 4 * i

/-- The copies that the pairing area records. -/
def State.keptCopies (s : State) : List (Nat × Nat × Nat × Nat) :=
  s.partnerEnts.filterMap fun e =>
    let a := 65536 * leNat (s.bytesAt (s.keptAddr e.1) 4)
    if mirrored e.2.2 then some (e.1, e.2.1, a, a + pad64K e.2.1) else none

/-- Record the copies in the pairing area. -/
def State.writeCopies (s : State) : State :=
  s.write 0 (s.keptAddr 0) ((List.range 4096).flatMap fun i =>
    match s.res.pair.copies.find? fun c => c.1 = i with
    | some c => leBytes 4 (c.2.2.1 / 65536)
    | none => leBytes 4 0)

/-- Kept state of the loaded job (R479). -/
def State.keptJob (s : State) : Bool := bit s.res.regs.kept 48 && s.res.regs.keptJob = s.jobId

/-- Send what this device writes into the partner's pairing area: sizes and classes (section 0, 32 KiB), or copy addresses
(section 1, 16 KiB). -/
def State.sendArea (s : State) (section_ : Nat) (values : List Nat) : State :=
  let n := 2 - section_
  (List.range n).foldl (fun s h =>
    let off := 0x8000 * section_ + 0x4000 * h
    s.sendMirror (mkMirror 0xFFE 0 (h + 1 = n) true s.nextStep (s.reserve + off)
      ((List.range 16384).map fun i => Config.pairByte section_ values (0x4000 * h + i)))) s

def State.sendSizes (s : State) : State :=
  s.sendArea 0 ((List.range s.prots.length).flatMap fun i => [ptSize (s.ent i), s.cls i])

/-- The copies' addresses go into the own pairing area and to the partner. -/
def State.sendAddrs (s : State) : State :=
  s.writeCopies.sendArea 1 (s.res.pair.copies.flatMap fun c => [c.1, c.2.2.1, c.2.2.2])

/-- The mirror port has become ACTIVE: PAIR goes out. -/
def State.startPairing (s : State) : State :=
  let s := s.updPair fun x => { x with sent := true, got := false, sizes := false, addrs := false, failed := false }
  s.sendOn (s.portOf 3) (mkCtrl 0x0B s.nextStep [put 0 13 s.prots.length ||| put 16 16 s.feedGrp])

/-- PAIR has come (R430): the feed is judged, and sizes and classes go to the partner. -/
def State.rxPair (s : State) (w1 : W64) : State :=
  if !s.hasPartner then s
  else
    let s := if s.res.pair.sent && !s.res.pair.got then s else s.startPairing
    let s := s.updPair fun x => { x with got := true, nprot := fld w1 0 13, feed := s.peerFeed }
    let sh := s.feedsMeet
    let s := s.updPair fun x => { x with shared := sh }
    let s := if s.host.st = .running || s.host.st = .recovering || s.host.st = .paused then s else s.reclass sh
    (s.resBits stsFEED sh).sendSizes

/-- The partner's sizes and classes are in: lay out the copies, or keep them, and send their addresses. -/
def State.gotSizes (s : State) : State :=
  let copies := if s.keptJob then s.keptCopies else s.layCopies
  let s := s.updPair fun x => { x with sizes := true, copies := copies }
  if interTop < s.mirrorFree copies then s.updPair fun x => { x with failed := true } else s.sendAddrs

/-- The partner's copy addresses of this device's entries are in. From then until its first MIRROR_DONE the partner may
fill: its START is not seen here (R433; log entry 38). -/
def State.gotAddrs (s : State) : State :=
  let area := s.bytesAt s.reserve 65536
  s.updPair fun x => { x with
    addrs := true,
    fillIn := true,
    mine := (List.range s.prots.length).map fun i => (Config.pairField 4 area i, Config.pairField 5 area i) }

/-- Pairing is complete (R430). -/
def State.paired (s : State) : Bool :=
  !s.hasPartner || (s.res.pair.sizes && s.res.pair.addrs && !s.res.pair.failed)

/-- Where the partner keeps a buffer of an own entry. -/
def State.mineAddr (s : State) (i buf : Nat) : Nat :=
  let a := s.res.pair.mine.getD i (0, 0)
  if buf = 0 then a.1 else a.2

/-! ### Sending to the partner (R432) -/

/-- Rising unit numbers as runs of at most 256. -/
def unitRuns (us : List Nat) : List (Nat × Nat) :=
  (us.foldl (fun (a : List (Nat × Nat)) u =>
    match a with
    | (b, n) :: l => if u = b + n && n < 256 then (b, n + 1) :: l else (u, 1) :: a
    | [] => [(u, 1)]) []).reverse

/-- Send units of a buffer of entry `i` to the partner's mirror buffer of the same number. -/
def State.sendUnits (s : State) (i src buf step : Nat) (fill : Bool) (us : List Nat) : State :=
  let runs := unitRuns us
  (List.range runs.length).foldl (fun s k =>
    let (u, n) := runs.getD k (0, 0)
    let last := k + 1 = runs.length
    s.sendMirror (mkMirror i buf last fill step (s.mineAddr i buf + 64 * u) (s.moveBytes (src + 64 * u) (64 * n)))) s

/-- The units of an entry in which its buffers differ (C_u). -/
def State.diffUnits (s : State) (e : List W64) : List Nat :=
  (List.range (ptSize e / 64)).filter fun k =>
    s.bytesAt (ptBuf e 0 + 64 * k) 64 ≠ s.bytesAt (ptBuf e 1 + 64 * k) 64

/-- C_u of an entry: as recorded, or, when nothing is recorded of it, as the change map in memory holds it (after WARM). -/
def State.changeMap (s : State) (i u : Nat) : List Nat :=
  match (SMap.get [] s.res.changed i).find? fun m => m.1 = u with
  | some m => m.2
  | none =>
    let map := s.bytesAt (s.mapAddr i) (mapBytes (s.ent i))
    (List.range (ptSize (s.ent i) / 64)).filter fun k => (map.getD (k / 8) 0).getLsbD (k % 8)

/-- The maps that a replay from the last global commit, or from the last snapshot, can still need. -/
def State.mapsNeeded (s : State) (e : List W64) (u : Nat) : Nat :=
  match if bit s.res.regs.snap 48 then some (fld s.res.regs.snap 0 48) else none with
  | some k => min (u - 1) (s.updNo e k)
  | none => if s.hasStripe then 0 else u - 1

/-- Record C_u and write the change map. -/
def State.recordMap (s : State) (i u : Nat) (cu : List Nat) : State :=
  let e := s.ent i
  let old := (SMap.get [] s.res.changed i).filter fun m => m.1 ≠ u && s.mapsNeeded e u ≤ m.1
  let s := { s with res := { s.res with changed := SMap.set [] s.res.changed i (old ++ [(u, cu)]) } }
  s.write 0 (s.mapAddr i) ((List.range (mapBytes e)).map fun b =>
    BitVec.ofNat 8 ((List.range 8).foldl (fun v k => v + if cu.contains (8 * b + k) then 2 ^ k else 0) 0))

/-- An update of an M or MS tensor at a layer commit (R432). -/
def State.mirrorUpdate (s : State) (i step : Nat) : State :=
  let e := s.ent i
  let b := s.updBuf e step
  let s := (s.corrected (ptBuf e 0) (ptSize e)).corrected (ptBuf e 1) (ptSize e)
  let s := match s.ueIn (ptBuf e 0) (ptSize e), s.ueIn (ptBuf e 1) (ptSize e) with
    | some u, _ => s.consumeUE 0 u
    | none, some u => s.consumeUE 0 u
    | none, none => s
  let cu := s.diffUnits e
  let u := s.updNo e step
  let old := s.changeMap i (u - 1)
  let s := s.recordMap i u cu
  if s.partnerUp then
    s.sendUnits i (ptBuf e b) b step false (old.foldl insNat cu)
  else s

/-- Fill both mirror buffers of an entry from its committed value (R432, R660). -/
def State.fillEntry (s : State) (i : Nat) : State :=
  let e := s.ent i
  let src := s.heldAddr e s.nextStep
  let us := List.range (ptSize e / 64)
  (s.sendUnits i src 0 s.nextStep true us).sendUnits i src 1 s.nextStep true us

/-- No entry has changed before the first step (R432). -/
def State.clearMaps (s : State) : State :=
  (List.range s.prots.length).foldl (fun s i => s.write 0 (s.mapAddr i) (List.replicate (mapBytes (s.ent i)) 0))
    { s with res := { s.res with changed := [] } }

/-- The fill of START with MODE = FRESH. -/
def State.firstFill (s : State) : State :=
  let s := s.updPair fun x => { x with fillOut := true, fillIn := true }
  (List.range s.prots.length).foldl (fun s i => if mirrored (s.cls i) then s.fillEntry i else s) s

/-- Entries whose fill of R660 waits, once the partner's addresses are known. -/
def State.lateFill (s : State) : State :=
  let l := s.res.pair.fillMine
  l.foldl (fun s i => s.fillEntry i) (s.updPair fun x => { x with fillMine := [] })

/-- No MIRROR packet of a step, and none of a fill, is waiting or unacknowledged. -/
def State.mirrorClear (s : State) (step : Nat) : Bool :=
  match s.portOf 3 with
  | none => true
  | some p =>
    let x := s.port p
    let open_ := fun (k : Packet) => k.ptype = ptMIRROR && (k.fC / 65536 = step % 65536 || k.fB.testBit 2)
    !((x.queue vcRES).any fun t => open_ t.pkt) && !(x.unacked.any fun f => open_ f.pkt.pkt)

/-! ### Receiving MIRROR packets (R433) -/

def mirIdx (k : Packet) : Nat := k.fA % 4096
def mirBuf (k : Packet) : Nat := k.fB % 2

/-- The mirror buffer that holds the partner's value at the last global commit here: by the rule of R418, on the partner's
update numbers, which its job image fixes and no packet tells (log entry 38). -/
def State.mirrorHeld (s : State) (i : Nat) : Nat := b2n (Config.partnerHeld s.jobId i s.nextStep)

def State.mirrorOk (s : State) (k : Packet) : Bool :=
  let i := mirIdx k
  let len := 64 * k.len
  let fill := k.fB.testBit 2
  let inside := fun (a n : Nat) => a ≤ k.addr && k.addr + len ≤ a + n
  let stepOk := k.fC / 65536 = s.nextStep % 65536
  if i = 0xFFE then inside s.reserve 65536 && (fill || stepOk)
  else if i = 0xFFF then inside (s.reserve + 0x10000) 0x400000 && (fill || stepOk)
  else match s.res.pair.copies.find? fun c => c.1 = i with
    | none => false
    | some c =>
      inside (if mirBuf k = 0 then c.2.2.1 else c.2.2.2) (pad64K c.2.1) &&
      (if fill then s.res.pair.fillIn || s.res.filling || s.res.pair.fillEnts.contains i
        else stepOk && mirBuf k ≠ s.mirrorHeld i)

/-- Perform a MIRROR packet. -/
def State.rxMirror (s : State) (p : Nat) (k : Packet) : State :=
  if !s.mirrorOk k then s.rxRefuse p k .bounds true
  else
    let s := s.write 0 k.addr k.body
    if mirIdx k = 0xFFE && k.fB.testBit 1 then
      if k.addr < s.reserve + 0x8000 then s.gotSizes else s.gotAddrs.lateFill
    else s

/-! ### Stripe groups (R439–R442) -/

/-- Fellow number j of member m, and the other way round. -/
def fellow (m j : Nat) : Nat := if j < m then j else j + 1

/-- The 64 KiB units of the entries of some classes, as addresses in the buffers committed at a step with the bytes
that are the tensor's own. -/
def State.unitsOf (s : State) (step : Nat) (want : Nat → Bool) : List (Nat × Nat) :=
  (List.range s.prots.length).flatMap fun i =>
    if want (s.cls i) then
      let e := s.ent i
      let a := s.heldAddr e (step + 1)
      (List.range (ceilDiv (ptSize e) 65536)).map fun k => (a + 65536 * k, min 65536 (ptSize e - 65536 * k))
    else []

def State.payload (s : State) (step : Nat) : List (Nat × Nat) := s.unitsOf step striped
def State.passengers (s : State) (step : Nat) : List (Nat × Nat) := s.unitsOf step (· = clsM)

/-- The bytes of a unit, padded; zeros beyond the end. -/
def State.unitBytes (s : State) (u : Option (Nat × Nat)) : List Byte :=
  match u with
  | some (a, n) => s.moveBytes a n ++ List.replicate (65536 - n) 0
  | none => List.replicate 65536 0

/-- GF(2⁸) with polynomial 0x11D (R441). -/
def gfDouble (x : Nat) : Nat := if 128 ≤ x then (2 * x) ^^^ 0x11D else 2 * x
def gfMul : Nat → Nat → Nat → Nat
  | 0, _, _ => 0
  | n + 1, x, y => (if y % 2 = 1 then x else 0) ^^^ gfMul n (gfDouble x) (y / 2)
def gfPow : Nat → Nat
  | 0 => 1
  | n + 1 => gfDouble (gfPow n)
/-- The inverse: x to the 254th. -/
def gfInv (x : Nat) : Nat :=
  (List.range 7).foldl (fun (a : Nat × Nat) _ =>
    let sq := gfMul 8 a.2 a.2
    (gfMul 8 a.1 sq, sq)) (1, x) |>.1

def xorBytes (a b : List Byte) : List Byte := List.zipWith (· ^^^ ·) a b
def scaleBytes (c : Nat) (a : List Byte) : List Byte := a.map fun b => BitVec.ofNat 8 (gfMul 8 c b.toNat)

/-- The parity units of a row of data units. -/
def parityX (ds : List (List Byte)) : List Byte := ds.foldl xorBytes (List.replicate 65536 0)
def parityQ (ds : List (List Byte)) : List Byte :=
  (List.range ds.length).foldl (fun a j => xorBytes a (scaleBytes (gfPow j) (ds.getD j []))) (List.replicate 65536 0)

/-- Unit k of row r of a payload. -/
def State.rowUnit (s : State) (units : List (Nat × Nat)) (r k : Nat) : List Byte :=
  let d := s.stripeD
  if k < d then s.unitBytes (units[r * d + k]?)
  else
    let ds := (List.range d).map fun j => s.unitBytes (units[r * d + j]?)
    if k = d then parityX ds else parityQ ds

/-- The port toward a member (R442). -/
def State.towards (s : State) (target : Nat) : Option Nat := s.portOf (if s.stripeMe < target then 2 else 1)

/-- A STRIPE packet (R442). -/
def mkStripe (op target owner slot step addr : Nat) (body : List Byte) : Packet :=
  mkPacket ptSTRIPE vcRES 0 (target + 32 * owner + 512 * op) addr slot 0 ((step % 65536) * 65536) body

/-- Send one 64 KiB unit in packets of 16 KiB. -/
def State.sendUnit64 (s : State) (op target owner slot step addr : Nat) (bs : List Byte) : State :=
  (List.range 4).foldl (fun s q =>
    s.sendOn (s.towards target) (mkStripe op target owner slot step (addr + 16384 * q)
      ((bs.drop (16384 * q)).take 16384))) s

/-- Start the drain of a snapshot: shares to every fellow, passengers to the successor. -/
def State.drainSend (s : State) (step : Nat) : State :=
  let me := s.stripeMe
  let g := s.stripeG
  let slot := (step / max 1 (resK s.resHdr)) % 2
  let units := s.payload step
  let rows := ceilDiv units.length (max 1 s.stripeD)
  let base := fun (m : Nat) => Config.stripeBase s.jobId m me slot
  let s := (List.range rows).foldl (fun s r =>
    (List.range (g - 1)).foldl (fun s k =>
      let m := fellow me ((k + r) % (g - 1))
      s.sendUnit64 0 m me slot step (base m + 65536 * r) (s.rowUnit units r k)) s) s
  let succ := (me + 1) % g
  let ps := s.passengers step
  (List.range ps.length).foldl (fun s k =>
    s.sendUnit64 0 succ me slot step (base succ + 65536 * (rows + k)) (s.unitBytes (ps[k]?))) s

/-- Begin every drain that may begin (R444): the snapshot before it is complete, or there was none. -/
def State.beginDrains (s : State) : State :=
  let k := resK s.resHdr
  s.res.drains.foldl (fun s d =>
    let may := d.step < s.firstStep + k || match s.res.lastGroup with
      | some g => d.step ≤ g + k
      | none => false
    if d.begun || !may then s
    else
      let s := { s with res := { s.res with
        drains := s.res.drains.map fun (x : Drain) => if x.step = d.step then { x with begun := true } else x } }
      s.drainSend d.step) s

/-- A snapshot falls due at a global commit (R439). -/
def State.snapshotDue (s : State) (step : Nat) : State :=
  if s.hasStripe && step % max 1 (resK s.resHdr) = 0 && !(s.res.drains.any fun d => d.step = step) then
    { s with res := { s.res with drains := s.res.drains ++ [({ step := step } : Drain)] } }.beginDrains
  else s

/-- The last snapshot for which this device has recorded SNAP_OWN. -/
def State.ownSnap (s : State) : Option Nat :=
  (s.res.owns.filter fun x => x.1 = s.stripeMe).foldl (fun (m : Option Nat) x =>
    match m with
    | some k => some (max k x.2)
    | none => some x.2) none

/-- After a resume, every snapshot at or below the last global commit without SNAP_OWN is drained again (R444). -/
def State.redrain (s : State) : State :=
  let k := resK s.resHdr
  if k = 0 || !s.glbValid then s
  else
    let low := match s.ownSnap with
      | some o => o + 1
      | none => s.firstStep
    ((List.range (s.glbStep / k + 1)).map (k * ·)).foldl (fun s n =>
      if low ≤ n && n ≤ s.glbStep then s.snapshotDue n else s) s

/-! ### Permits (R419) -/

/-- The entries of a layer whose update at a step writes a buffer that a drain still reads. -/
def State.stalledBy (s : State) (ly : List W64) (step : Nat) : List Nat :=
  (s.entsOf (lyBranch ly) (lyLayer ly)).filter fun i =>
    let e := s.ent i
    s.updates e step && s.cls i ≠ clsN &&
      s.res.drains.any fun d => s.heldBuf e (d.step + 1) = s.updBuf e step

/-- Add a layer's permit. -/
def State.addPermit (s : State) (ly : List W64) : State :=
  (lyFolds ly).foldl (fun s n => s.evtAddLogical n (lyPermit ly) 1) s

/-- The permits of a step fall due: each is added, or waits for a drain. -/
def State.permits (s : State) (step : Nat) : State :=
  (List.range s.layerTab.length).foldl (fun s i =>
    let ly := s.layerTab.getD i []
    if !((s.entsOf (lyBranch ly) (lyLayer ly)).any fun j => s.updates (s.ent j) step) then s
    else if (s.stalledBy ly step).isEmpty then s.addPermit ly
    else { s with res := { s.res with owed := s.res.owed ++ [(step, i)] } }) s

/-- A drain has been acknowledged: the permits that waited for it are added, each a drain stall. -/
def State.drainDone (s : State) (step : Nat) : State :=
  let before := s.res.owed.map fun o => (o, s.stalledBy (s.layerTab.getD o.2 []) o.1)
  let s := { s with res := { s.res with drains := s.res.drains.filter fun d => d.step ≠ step } }
  before.foldl (fun s b =>
    let ly := s.layerTab.getD b.1.2 []
    if (s.stalledBy ly b.1.1).isEmpty then
      let s := { s with res := { s.res with owed := s.res.owed.filter (· ≠ b.1) } }
      let s := (s.resCount 0 1).tally 0x31 b.1.1 0 (lyBranch ly) (lyLayer ly) Status.drainStall.code
        (BitVec.ofNat 64 (b.2.headD 0)) 0 0
      s.addPermit ly
    else s) s

end Sys2Proof.Machine
end

