-- ==== Sys2Proof/Machine/Commit.lean ====
section
/-!
DEFINITION. Sys2Proof/Machine/Commit.lean: PROGRESS (R422–R424), the commit protocol (R428, R429), staged changes at
their point (R655–R660), how a device halts and stops (R458, R499), and snapshot acknowledgements (R443).
-/
namespace Sys2Proof.Machine

/-- Change what the resilience engine holds; the headcount watchdog sees RES_COMMIT_DEV change (R630). -/
def State.modRes (s : State) (g : Res → Res) : State :=
  let r := g s.res
  { s with
    res := r,
    dbg := if r.regs.commitDev = s.res.regs.commitDev then s.dbg else { s.dbg with wdogAt := s.now } }
def State.modRegs (s : State) (g : ResRegs → ResRegs) : State := s.modRes fun r => { r with regs := g r.regs }
def State.modJob (s : State) (g : Job → Job) : State :=
  match s.job with
  | some j => { s with job := some (g j) }
  | none => s

/-- A step word: STEP in bits 47:0, VALID in bit 48 (R38, R475, R479). -/
def stepWord (n : Nat) : W64 := put 0 48 n ||| put 48 1 1
/-- A step word of a control record: VALID in bit 63 (R426). -/
def recStep (n : Option Nat) : W64 :=
  match n with
  | some n => put 0 48 n ||| put 63 1 1
  | none => 0
def ofRecStep (w : W64) : Option Nat := if bit w 63 then some (fld w 0 48) else none

/-! ### Staged changes (R656–R660) -/

def itemCode (it : W64 × W64) : Nat := fld it.1 0 8
def itemArg (it : W64 × W64) : Nat := fld it.1 16 48

/-- The page attribute table as a list of what is not zero. -/
def State.pageMap (s : State) : SMap Nat :=
  match s.cfg.pages with
  | some m => m
  | none => (List.range 491520).map fun q => (q, s.pageEntry q)

/-- Reserve and pool pages keep V, S, R and W, whatever a map says (R257). -/
def State.fixedPage (s : State) (q : Nat) : Bool :=
  s.job.isSome &&
    ((s.poolBase / 0x200000 ≤ q && q < s.poolBase / 0x200000 + s.poolPages)
      || (resReserve s.resHdr ≠ 0 && s.reserve / 0x200000 ≤ q))

def pgFixed : Nat := pgV + pgS + pgR + pgW

def State.setPages (s : State) (first count e : Nat) : State :=
  let m := (List.range count).foldl (fun m i =>
    SMap.set 0 m (first + i) (if s.fixedPage (first + i) then pgFixed else e)) s.pageMap
  { s with cfg := { s.cfg with pages := some m } }

/-- The lowest free run of the mirror area that holds two buffers (R431). -/
def State.freeRun (s : State) (p : Nat) : Option Nat :=
  let cs := s.res.pair.copies
  let ends := s.mirrorStart :: cs.map fun c => c.2.2.2 + pad64K c.2.1
  let ok := fun (a : Nat) => a + 2 * p ≤ interTop && cs.all fun c =>
    let q := pad64K c.2.1
    (a + 2 * p ≤ c.2.2.1 || c.2.2.1 + q ≤ a) && (a + 2 * p ≤ c.2.2.2 || c.2.2.2 + q ≤ a)
  (ends.foldl (fun l a => insNat l a) []).find? ok

/-- The partner's entry of the same index takes the new class as well (R431; log entry 39). -/
def State.holderClass (s : State) (i : Nat) (old new : Nat) : State :=
  if mirrored old = mirrored new then s
  else if mirrored new then
    let size := ((s.partnerEnts[i]?).map fun e => e.2.1).getD 0
    match s.freeRun (pad64K size) with
    | none => s
    | some a =>
      (s.updPair fun x => { x with
        copies := x.copies ++ [(i, size, a, a + pad64K size)], fillEnts := insNat x.fillEnts i }).sendAddrs
  else (s.updPair fun x => { x with copies := x.copies.filter fun c => c.1 ≠ i }).sendAddrs

/-- Automatic classing has found neither a partner nor a group (R421): RES_STS.UNPROTECTED. -/
def State.markUnprotected (s : State) : State :=
  s.resBits stsUNPROT (!s.hasPartner && !s.hasStripe && s.prots.any fun e => ptClass e = 0)

/-- The copies of the partner's tensors that a change brings in all have room (R431). -/
def State.holderRoom (s : State) (items : List (W64 × W64)) : Bool :=
  (items.foldl (fun (a : State × Bool) it =>
    let i := itemArg it
    if itemCode it ≠ 0x02 || !s.hasPartner then a
    else
      let new := effClass s.resHdr s.hasPartner s.hasStripe s.sharedFeed
        ((s.ent i).set 0 (setFld (wd (s.ent i) 0) 12 3 (fld it.2 0 3)))
      let size := ((a.1.partnerEnts[i]?).map fun e => e.2.1).getD 0
      if mirrored new && !mirrored (a.1.cls i) && (a.1.freeRun (pad64K size)).isNone then (a.1, false)
      else (a.1.holderClass i (a.1.cls i) new, a.2)) (s, true)).2

/-- Apply one item. -/
def State.applyItem (s : State) (it : W64 × W64) : State :=
  let i := itemArg it
  let w := it.2
  match itemCode it with
  | 0x01 => s.setPages i (fld w 32 19) (fld w 0 16)
  | 0x02 =>
    let old := s.cls i
    let s := s.modJob fun j => { j with
      prot := j.prot.set i (match j.prot[i]? with
        | some e => e.set 0 (setFld (wd e 0) 12 3 (fld w 0 3))
        | none => []) }
    let new := effClass s.resHdr s.hasPartner s.hasStripe s.sharedFeed (s.ent i)
    let s := (s.modRes fun r => { r with classes := r.classes.set i new }).writeClasses.markUnprotected
    let s := if mirrored new && !mirrored old then s.updPair fun x => { x with fillMine := insNat x.fillMine i } else s
    if s.hasPartner then s.holderClass i old new else s
  | 0x03 => { s with col := { s.col with small := fld w 0 32 } }
  | 0x04 => s.modJob fun j => { j with
      plans := j.plans.set i (match j.plans[i]? with
        | some p => p.set 6 (setFld (wd p 6) 32 32 (fld w 0 32))
        | none => []) }
  | 0x10 =>
    let s := s.modJob fun j => { j with
      folds := j.folds.set i (match j.folds[i]? with
        | some f => f.set 0 (setFld (wd f 0) 48 3 (fld w 0 3))
        | none => []) }
    s.updFold (s.physOf i) fun v => { v with fcSize := fld w 0 3 }
  | 0x11 =>
    let s := s.updPort i fun x => { x with regs := { x.regs with vcCfg := w } }
    match (s.port i).st with
    | .down | .disabled => s
    | _ => s.leave i none false
  | 0x12 => s.modJob fun j => { j with mbx := j.mbx.set (i - 16) w }
  | _ => s

/-- The islands an item touches, as R610 names them (log entry 40). -/
def State.itemIslands (s : State) (it : W64 × W64) : List Nat :=
  match itemCode it with
  | 0x01 => (((List.range 320).map s.physOf).filter s.inService).foldl (fun l f => insNat l (16 + f))
      (((List.range 6).filter fun p => (s.port p).role ≠ 0).map (8 + ·) ++ [0x3FF])
  | 0x10 => [16 + s.physOf (itemArg it)]
  | 0x11 => [8 + itemArg it]
  | _ => [0x3FF]

/-- A class change that includes M on either side is made with the partner. -/
def State.itemPaired (s : State) (it : W64 × W64) : Bool :=
  itemCode it = 0x02 && s.hasPartner &&
    (mirrored (s.cls (itemArg it)) ||
      mirrored (effClass s.resHdr s.hasPartner s.hasStripe s.sharedFeed
        ((s.ent (itemArg it)).set 0 (setFld (wd (s.ent (itemArg it)) 0) 12 3 (fld it.2 0 3)))))

def Staged.islands (g : Staged) (s : State) : List Nat :=
  (g.items.flatMap s.itemIslands).foldl (fun l i => insNat l i) []

/-- The islands of this device have prepared. -/
def State.ownReady (s : State) (g : Staged) : Bool := (g.islands s).all fun i => g.answers.contains (i, 1)

/-- Every island, and the partner when a change is paired, has prepared (R658). -/
def State.stageReady (s : State) (g : Staged) : Bool :=
  s.ownReady g && (g.partner || !(g.items.any s.itemPaired))

/-- An island that cannot prepare (R658): in Rest or Deep, stopped or being rebuilt, or a port that is not ACTIVE. -/
def State.islandUnable (s : State) (i : Nat) : Bool :=
  if 8 ≤ i && i ≤ 13 then (s.port (i - 8)).st ≠ .active
  else if 16 ≤ i && i ≤ 351 then
    s.foldsDown || (s.fold (i - 16)).island.stopped || (s.fold (i - 16)).island.failed
  else 0x3E0 ≤ i && i < 0x3FF && s.foldsDown

/-- A word of this device's shepherd for private channel 70 of its partner (R332, R355, R658). -/
def State.sendShepherd (s : State) (w : W64) : State :=
  s.sendOn (s.portOf 3) (mkPacket ptMSG vcCTL 2 0 0 0 0 0 (leBytes 8 w.toNat ++ [70#8]))

/-- Prepare begins, or begins again: the partner of a paired change gets the block's digest. How the digest is formed and what
the answer looks like the manual does not say (log entry 98). -/
def State.stagePrepare (s : State) : State :=
  match s.cfg.staged with
  | some g => if g.items.any s.itemPaired then s.sendShepherd (Config.stageDigest g.items) else s
  | none => s

/-- The partner's digest is answered PREPARED once a pending STAGE has the same digest and its own islands have prepared. -/
def State.stagePeer (s : State) : State :=
  match s.cfg.staged, s.cfg.peerWord with
  | some g, some w =>
    if w = Config.stageDigest g.items && s.ownReady g then
      { s with cfg := { s.cfg with peerWord := none } }.sendShepherd (Config.stagePrepared w)
    else s
  | _, _ => s

/-- The pending STAGE ends (R659). W4 of its result holds the change block's TAG (R656: copied to the result; the place
is log entry 83). -/
def State.stageEnd (s : State) (st : Status) (ws : List W64) : State :=
  let ws := fun (tag : Nat) => [wd ws 0, wd ws 1, put 0 32 tag]
  match s.cfg.staged with
  | none => s
  | some g =>
    ({ s with cfg := { s.cfg with staged := none, stageSt := 0, stageLast := st.code } }.complete g.cmd st (ws g.tag))

/-- Apply the staged change whole. -/
def State.stageApply (s : State) (step : Nat) : State :=
  match s.cfg.staged with
  | none => s
  | some g =>
    let s := g.items.foldl (fun s it => s.applyItem it) s
    ((s.traceLost 0).traceLost 1).stageEnd .ok [put 0 48 step]

/-- A global commit is recorded while a change is staged: it is applied, or held (R658, R659). -/
def State.stageCommit (s : State) (step : Nat) : State :=
  match s.cfg.staged with
  | none => s
  | some g =>
    if s.stageReady g then s.stageApply step
    else if 15 ≤ g.holds then s.stageEnd .timeout []
    else { s with cfg := { s.cfg with
      stageSt := 3,
      staged := some { g with answers := [], partner := false, held := true, holds := g.holds + 1,
                              target := step + 1 } } }.stagePrepare

/-- A stop discards what is prepared (R659). -/
def State.stageStop (s : State) : State :=
  match s.cfg.staged with
  | none => s
  | some g => { s with cfg := { s.cfg with stageSt := 2, staged := some { g with answers := [], partner := false } } }

/-! ### Halting (R458, R499) -/

/-- Everything a stop does to the device's own work. -/
def State.halt (s : State) : State :=
  let s := s.resetFolds.abandonInsts.stageStop
  s.modRes fun r => { r with
    prog := [], layers := [], votes := [], voted := none, devN := none, mirAck := none, mirDone := none, drains := [],
    owed := [], tainted := false, resumeSent := false, shared := [] }

/-- What a stop under R458 shows to trace and headcount (R624, R630). -/
def State.stopSeen (s : State) : State :=
  let s := s.fireHub 3
  if bit s.dbg.hcCtl 1 then s.hcRequest 1 else s

/-! ### Votes and global commits (R428, R429) -/

def State.tally0 (s : State) (kind step : Nat) (v0 : W64) : State := s.tally kind step 0 0 0 0 v0 0 0

/-- The older of two snapshots; none is older than any. -/
def olderSnap : Option Nat → Option Nat → Option Nat
  | some a, some b => some (min a b)
  | _, _ => none

/-- A GLB_COMMIT entry, and what follows in registers (R429 steps 1 and 2, R479). -/
def State.recordGlobal (s : State) (n : Nat) (snap : W64) : State :=
  let s := s.tally0 0x22 n snap
  s.modRegs fun r => { r with
    commitGlb := stepWord n, kept := stepWord n, keptJob := s.jobId,
    snap := match ofRecStep snap with
      | some k => stepWord k
      | none => r.snap }

/-- The pending PAUSE, when its step has committed (R499). -/
def State.pauseDue (s : State) (n : Nat) : Option Cmd :=
  match s.cmdOf 0x05 with
  | some c => if c.started && fld (wd c.words 2) 0 48 ≤ n then some c else none
  | none => none

/-- The global commit of step n is recorded here (R429). -/
def State.globalCommit (s : State) (n : Nat) (snap : W64) : State :=
  let was := s.tallyWaits
  let s := (s.recordGlobal n snap).unblockTally
  let s := if was then { s with due := s.due ++ [Due.tallyRoom] } else s
  let s := s.stageCommit n
  let s := s.forgetInsts n
  let s := (resChildren s.resHdr).foldl (fun s p => s.sendOn (some p) (mkCtrl 0x02 n [snap])) s
  let s := s.modRes fun r => { r with
    prog := r.prog.filter fun x => n < x.step, layers := r.layers.filter fun x => n < x.1 }
  let s := s.snapshotDue n
  match s.pauseDue n with
  | some c => (s.halt.stopSeen.setHost .paused true).complete c .ok [put 0 48 (fld (wd c.words 2) 0 48)]
  | none => s.permits (n + 1)

/-- Vote, or at the root commit, when the conditions of R428 hold. -/
def State.tryVote (s : State) : State :=
  match s.res.devN with
  | none => s
  | some n =>
    let kids := resChildren s.resHdr
    let voteOf := fun p => SMap.get none s.res.votes p
    let all := kids.all fun p => match voteOf p with
      | some (k, _) => k = n
      | none => false
    if !s.running || n ≠ s.nextStep || s.res.voted = some n || !all || (s.hasPartner && s.res.mirAck ≠ some n)
      || s.tallyWaits then s
    else
      let snap := kids.foldl (fun m p => match voteOf p with
        | some (_, l) => olderSnap m l
        | none => m) s.res.lastGroup
      let s := s.modRes fun r => { r with voted := some n }
      if resParent s.resHdr = 0xF then s.globalCommit n (recStep snap)
      else s.sendOn (some (resParent s.resHdr)) (mkCtrl 0x01 n [recStep snap])

/-- A VOTE from a child; a stopped device ignores it until RESUME (R458). -/
def State.rxVote (s : State) (p step : Nat) (w1 : W64) : State :=
  if s.res.stopped && s.res.resumeAt.isNone then s
  else (s.modRes fun r => { r with votes := SMap.set none r.votes p (some (step, ofRecStep w1)) }).tryVote

/-- GLOBAL from the parent. -/
def State.rxGlobal (s : State) (p step : Nat) (w1 : W64) : State :=
  if !s.running || p ≠ resParent s.resHdr || step ≠ s.nextStep then s else s.globalCommit step w1

/-! ### PROGRESS (R422–R424) -/

def pgKind (d : List W64) : Nat := fld (wd d 0) 12 2
def pgStep (d : List W64) : Nat := fld (wd d 1) 0 48
def pgBranch (d : List W64) : Nat := fld (wd d 2) 0 6
def pgLayer (d : List W64) : Nat := fld (wd d 2) 16 16
def pgMb (d : List W64) : Nat := fld (wd d 2) 32 13

def progReserved (d : List W64) : Bool :=
  let k := pgKind d
  fld (wd d 0) 14 18 ≠ 0 || fld (wd d 1) 48 16 ≠ 0 || fld (wd d 2) 6 10 ≠ 0 || fld (wd d 2) 45 19 ≠ 0
  || (List.range 3).any (fun i => wd d (5 + i) ≠ 0)
  || (k = 2 && (pgMb d ≠ 0)) || (k < 2 && pgLayer d ≠ 0) || (k ≠ 0 && k ≠ 3 && (wd d 3 ≠ 0 || wd d 4 ≠ 0))

def pgKey (d : List W64) : Nat := if pgKind d = 2 then pgLayer d else pgMb d

def State.findLayer (s : State) (branch layer : Nat) : Option (List W64) :=
  s.layerTab.find? fun w => lyBranch w = branch && lyLayer w = layer

def State.progOf (s : State) (d : List W64) : Option Prog :=
  s.res.prog.find? fun x => x.kind = pgKind d && x.step = pgStep d && x.branch = pgBranch d && x.key = pgKey d

/-- NMBF or NUPD. -/
def State.progLimit (s : State) (d : List W64) : Nat :=
  if pgKind d = 2 then ((s.findLayer (pgBranch d) (pgLayer d)).map lyNupd).getD 0
  else brNmbf (s.branchWord (pgBranch d))

def State.progCheck (s : State) (d : List W64) (lfold : Nat) : Status :=
  let b := pgBranch d
  let nb := match s.job with
    | some j => j.branch.length
    | none => 0
  let got := s.progOf d
  firstFail [
    (pgKind d = 3, .unsupported),
    (nb ≤ b || !(s.layerTab.any fun w => lyBranch w = b)
      || (if pgKind d = 2 then (s.findLayer b (pgLayer d)).isNone else brMb (s.branchWord b) ≤ pgMb d), .bounds),
    (pgStep d ≠ s.nextStep && pgStep d ≠ s.nextStep + 1, .bounds),
    (match got with
      | some x => x.folds.contains lfold
      | none => false, .busy),
    (match got with
      | some x => s.progLimit d ≤ x.folds.length
          || (pgKind d = 0 && (x.idx ≠ wd d 3 || x.seed ≠ wd d 4))
      | none => s.progLimit d = 0, .bounds)]

/-- The device commit of a step (R33), unless the step is tainted (R269); it waits while its entry must (R447). -/
def State.devCommit (s : State) (step : Nat) : State :=
  if s.res.tainted || s.tallyWaits then s
  else
    let s := s.tally0 0x21 step 0
    let s := (s.modRegs fun r => { r with commitDev := stepWord step }).modRes fun r => { r with devN := some step }
    s.tryVote

/-- Every layer of the device has committed a step. -/
def State.layersDone (s : State) (step : Nat) : Bool :=
  s.layerTab.all fun w => s.res.layers.contains (step, lyBranch w, lyLayer w)

/-- A layer commits for a step (R32, R409, R432). -/
def State.layerCommit (s : State) (step branch layer : Nat) : State :=
  let upd := brUpdates (s.branchWord branch) step
  let s := s.tally 0x20 step 0 branch layer 0 (if upd then 1 else 0) 0 0
  let s := (s.entsOf branch layer).foldl (fun s i =>
    if mirrored (s.cls i) && s.updates (s.ent i) step then s.mirrorUpdate i step else s) s
  let s := (s.releaseLayer branch layer step).modRes fun r => { r with layers := r.layers ++ [(step, branch, layer)] }
  if s.layersDone step then s.devCommit step else s

/-- The tally has room again: a device commit that waited for it takes place. -/
def State.tallyRoom (s : State) : State :=
  let n := s.nextStep
  if s.running && !s.layerTab.isEmpty && s.layersDone n && s.res.devN ≠ some n then s.devCommit n else s

/-- The orderly stop of R539: counted, and the job stops with SUPPLY_LOW, agent 2. -/
def State.orderlyStop (s : State) : State :=
  { s with pwr := { s.pwr with stopAt := none, cnt := bumpFld s.pwr.cnt 16 16 1 },
           due := s.due ++ [Due.fault 2 Status.supplyLow.code 0 true] }

/-- A microbatch entry has been written: a pending orderly stop takes place. -/
def State.boundaryStop (s : State) : State := if s.running && s.pwr.stopAt.isSome then s.orderlyStop else s

/-- A PROGRESS with which its count is complete, so that an entry is due (R424, R447). -/
def State.progNeedsEntry (s : State) (d : List W64) (lfold : Nat) : Bool :=
  let folds := ((s.progOf d).map (·.folds)).getD []
  (insNat folds lfold).length = s.progLimit d

/-- An accepted PROGRESS counts (R424). -/
def State.progAccept (s : State) (d : List W64) (lfold : Nat) : State :=
  let x := (s.progOf d).getD { kind := pgKind d, step := pgStep d, branch := pgBranch d, key := pgKey d,
                               idx := wd d 3, seed := wd d 4 }
  let x := { x with folds := insNat x.folds lfold }
  let full := x.folds.length = s.progLimit d
  let s := s.modRes fun r => { r with
    prog := r.prog.filter (fun y => !(y.kind = x.kind && y.step = x.step && y.branch = x.branch && y.key = x.key))
      ++ [{ x with done := full }] }
  if !full then s
  else if pgKind d = 2 then s.layerCommit x.step x.branch x.key
  else if pgKind d = 0 then
    (s.tally 0x10 x.step 0 x.branch 0 0 x.idx x.seed (BitVec.ofNat 64 x.key)).boundaryStop
  else (s.tally 0x11 x.step 0 x.branch 0 0 0 0 (BitVec.ofNat 64 x.key)).boundaryStop

/-! ### The mirror's part of a commit (R432) -/

/-- MIRROR_DONE_SEND. -/
def opMirrorDone (s : State) : State :=
  match s.res.devN with
  | none => s
  | some n =>
    if !s.running || !s.partnerUp || s.res.mirDone = some n || !s.res.pair.fillMine.isEmpty || !s.mirrorClear n then s
    else
      ((s.modRes fun r => { r with mirDone := some n }).updPair fun x => { x with fillOut := false }).sendOn
        (s.portOf 3) (mkCtrl 0x03 n [])

/-- MIRROR_DONE from the partner: answered, and the fills it ends are closed (R432, R433). A device that fills itself, or
whose START is still to come, has had the partner's part of the fill (R468). -/
def State.rxMirrorDone (s : State) (step : Nat) : State :=
  let s := s.updPair fun x => { x with fillIn := false, fillEnts := [] }
  let s := if s.res.filling || s.host.st = .loaded then s.modRes fun r => { r with fillEnd := true } else s
  s.sendOn (s.portOf 3) (mkCtrl 0x04 step [])

def State.rxMirrorAck (s : State) (step : Nat) : State :=
  (s.modRes fun r => { r with mirAck := some step }).tryVote

/-! ### Snapshot acknowledgements (R443, R444) -/

/-- A member holds every SNAP_OWN of a snapshot: SNAP_GROUP. -/
def State.trySnapGroup (s : State) (step : Nat) : State :=
  let all := (List.range s.stripeG).all fun m => s.res.owns.contains (m, step)
  let newer := match s.res.lastGroup with
    | some g => g < step
    | none => true
  if all && newer && !s.tallyWaits then
    let s := (s.tally0 0x41 step (BitVec.ofNat 64 step)).modRes fun r => { r with
      lastGroup := some step, owns := r.owns.filter fun o => step ≤ o.2 }
    s.beginDrains
  else s

/-- SNAP_OWN of a member. -/
def State.rxSnapOwn (s : State) (member step : Nat) : State :=
  (s.modRes fun r => { r with owns := if r.owns.contains (member, step) then r.owns else r.owns ++ [(member, step)]
    }).trySnapGroup step

/-- SHARE_ACK from a holder; after the last, the owner records SNAP_OWN and tells every member. -/
def State.rxShareAck (s : State) (owner step : Nat) : State :=
  match s.res.drains.find? fun d => d.step = step && d.begun && owner = s.stripeMe with
  | none => s
  | some d =>
    if d.acks + 1 < s.stripeG - 1 || s.tallyWaits then
      s.modRes fun r => { r with drains := r.drains.map fun (x : Drain) =>
        if x.step = step then { x with acks := d.acks + 1 } else x }
    else
      let s := s.tally0 0x40 step (BitVec.ofNat 64 step)
      let me := s.stripeMe
      let s := (List.range s.stripeG).foldl (fun s m =>
        if m = me then s else s.sendOn (s.towards m) (mkCtrl 0x06 step [put 0 4 me] m)) s
      (s.drainDone step).rxSnapOwn me step

end Sys2Proof.Machine
end

