-- ==== Sys2Proof/Machine/Recover.lean ====
section
/-!
DEFINITION. Sys2Proof/Machine/Recover.lean: stops and faults (R457, R458), resuming (R459), rebuilds and adoption
(R463–R467), lost peers (R462, R468, R469), rollbacks (R441, R470), and the ports' part in all of it.
-/
namespace Sys2Proof.Machine

/-- A status that the manual leaves open: any code of R11 but OK (log entry 41). -/
def State.freeStatus (s : State) : Nat × State :=
  let (w, s) := s.fresh
  (1 + w.toNat % 19, s)

/-! ### Stopping (R457, R458) -/

/-- STOP on every job port in service but one. -/
def State.floodStop (s : State) (status agent : Nat) (but : Option Nat) : State :=
  s.ctrlAll 0x07 s.nextStep [put 0 8 status ||| put 16 16 s.rank, put 0 12 agent] fun p =>
    decide (some p ≠ but) && s.inSvc p

/-- The host state of a job that can be stopped. -/
def State.jobLive (s : State) : Bool :=
  s.job.isSome && (s.host.st = .running || s.host.st = .paused || s.host.st = .recovering)

/-- The host state becomes FAULTED (R457, R466, R469): a staged change ends. -/
def State.goFaulted (s : State) : State := (s.setHost .faulted false).stageEnd .notInState [0, 0]

/-- The entry whose committed buffer holds a unit (R461). -/
def State.ueEntry (s : State) (u : Nat) : Option Nat :=
  firstIdx s.prots.length fun i =>
    let a := s.heldAddr (s.ent i) s.nextStep
    a ≤ u && u < a + ptSize (s.ent i)

/-- Units of M and MS tensors that the partner is to rewrite (R461). -/
def State.restorePending (s : State) : Bool :=
  s.partnerUp && s.ue.any fun u => !u.corr && match s.ueEntry u.addr with
    | some i => mirrored (s.cls i)
    | none => false

/-- A damaged unit of a committed S tensor, or of an M or MS tensor without a partner, forces a rollback. -/
def State.ueRollback (s : State) : Bool :=
  s.ue.any fun u => !u.corr && match s.ueEntry u.addr with
    | some i => s.cls i = clsS || (mirrored (s.cls i) && !s.partnerUp)
    | none => false

/-- A scrub has found damage (R272, R461): an M or MS unit waits for the partner's DATA, N is recomputed, and for S the job
rolls back, for which it stops; the status of that stop is open (log entry 41) and its agent the engine's (R539, R471). -/
def State.needsRoll (s : State) : Bool :=
  s.ue.any fun u => !u.corr && match s.ueEntry u.addr with
    | some i => s.cls i = clsS
    | none => false

/-- The device raises a stop, or meets a further fault while stopped (R457, R458). -/
def State.raiseStop (s : State) (agent status detail : Nat) (replay : Bool) : State :=
  if !s.jobLive then s
  else
    let s := s.tally 0x50 s.nextStep agent 0 0 status (BitVec.ofNat 64 detail) 0 0
    let s := s.resFault agent status
    let s := if s.res.stopped then s
      else (s.modRes fun r => { r with stopped := true }).floodStop status agent none
    let s := s.modRes fun r => { r with rollNeed := r.rollNeed || s.ueRollback }
    let was := s.running
    let s := if was then s.halt.stopSeen else s
    if !replay then s.goFaulted else if was then s.setHost .recovering false else s

/-- What a scrub's finding leads to (R461). -/
def State.scrubDamage (s : State) : State :=
  if s.running && s.needsRoll then
    let (st, s) := s.freeStatus
    s.raiseStop 2 st 0 true
  else s

/-- The statuses of stops after which no device has lost anything (R405, R456, R457, R471, R539): the job resumes from the
last global commit. -/
def stopKeeps (status : Nat) : Bool :=
  status = Status.supplyLow.code || status = Status.timeout.code || status = Status.notReady.code

/-- The unit that the partner's STK_UE_LOG names is rewritten there from the mirror (R461). No packet tells which unit, so
it is a free choice among the units kept for the partner (log entry 92). -/
def State.rewritePartner (s : State) (p : Nat) : State :=
  let (w, s) := s.fresh
  let cs := s.res.pair.copies
  let total := cs.foldl (fun n c => n + c.2.1 / 64) 0
  if total = 0 then s
  else
    let rec pick : List (Nat × Nat × Nat × Nat) → Nat → State
      | [], _ => s
      | c :: l, k =>
        if k < c.2.1 / 64 then
          let b := s.mirrorHeld c.1
          let src := (if b = 0 then c.2.2.1 else c.2.2.2) + 64 * k
          (dataPackets vcRES 0 0 [(Config.partnerAddr (1 + b) c.1 + 64 * k, s.moveBytes src 64)]).foldl
            (fun s k => s.send p k) (s.corrected src 64)
        else pick l (k - c.2.1 / 64)
    pick cs (w.toNat % total)

/-- STOP from a peer (R458, R502): the first since the last RESUME is forwarded. -/
def State.rxStop (s : State) (p : Nat) (k : Packet) : State :=
  let ws := recWords k
  let status := fld (wd ws 1) 0 8
  let s := s.modRes fun r => { r with stopElse := r.stopElse || !stopKeeps status }
  let s := if s.portOf 3 = some p && status = Status.uncorrectable.code
      && fld (wd ws 1) 16 16 = hsRank (s.port p).peer && s.partnerUp then s.rewritePartner p else s
  if s.res.stopFwd then s
  else
    let had := s.res.stopped
    let s := s.modRes fun r => { r with stopped := true, stopFwd := true }
    let s := (List.range 6).foldl (fun s q =>
      if q ≠ p && s.jobPort q && s.inSvc q then s.send q { k with w2 := 0 } else s) s
    let s := s.modRes fun r => { r with rollNeed := r.rollNeed || s.ueRollback }
    match s.host.st with
    | .running => s.halt.stopSeen.setHost .recovering false
    | .paused => if had then s else s.setHost .recovering false
    | _ => s

/-! ### Rollback: shares sent back and data rebuilt (R441, R468, R470) -/

def State.snapStep (s : State) : Option Nat :=
  if bit s.res.regs.snap 48 then some (fld s.res.regs.snap 0 48) else none

/-- Every unit this device holds of an owner's snapshot goes back to the owner's restore area (log entry 42). -/
def State.sendBack (s : State) (step owner : Nat) : State :=
  let g := s.stripeG
  let me := s.stripeMe
  let slot := (step / max 1 (resK s.resHdr)) % 2
  let base := s.slotAddr owner slot
  let j := if me < owner then me else me - 1
  (List.range (s.slotSize owner slot / 65536)).foldl (fun s r =>
    let k := (j + (g - 1) - r % (g - 1)) % (g - 1)
    s.sendUnit64 2 owner owner slot step (Config.restoreBase s.jobId + 65536 * (r * (g - 1) + k))
      (s.bytesAt (base + 65536 * r) 65536)) s

def State.sendAllBack (s : State) (step : Nat) : State :=
  (List.range s.stripeG).foldl (fun s m => if m = s.stripeMe then s else s.sendBack step m) s

/-- A unit of the restore area has come back whole. -/
def State.backUnit (s : State) (r k : Nat) : Option (List Byte) :=
  let u := r * (s.stripeG - 1) + k
  if 1024 ≤ (s.res.restoreGot.filter fun x => x.2.1 = u && some x.1 = s.res.resumeAt.map fun n => (n - 1) % 65536).length then
    some (s.bytesAt (Config.restoreBase s.jobId + 65536 * u) 65536)
  else none

/-- The data units of a row from those that have come: D of them suffice (R441). -/
def rebuildRow (d : Nat) (have_ : Nat → Option (List Byte)) : List (List Byte) :=
  let zero := List.replicate 65536 0
  let ds := (List.range d).map have_
  let miss := (List.range d).filter fun j => (ds.getD j none).isNone
  let known := ds.map fun x => x.getD zero
  let a := (have_ d).map fun x => xorBytes x (parityX known)
  let b := (have_ (d + 1)).map fun q => xorBytes q (parityQ known)
  match miss, a, b with
  | [j], some a, _ => known.set j a
  | [j], none, some b => known.set j (scaleBytes (gfInv (gfPow j)) b)
  | [i, j], some a, some b =>
    let dj := scaleBytes (gfInv (gfPow i ^^^ gfPow j)) (xorBytes b (scaleBytes (gfPow i) a))
    (known.set j dj).set i (xorBytes a dj)
  | _, _, _ => known

def State.restoreRows (s : State) (step : Nat) : Nat := ceilDiv (s.payload step).length (max 1 s.stripeD)

/-- Whether enough has come back to rebuild everything. -/
def State.restoreReady (s : State) (step : Nat) : Bool :=
  let g1 := s.stripeG - 1
  let rows := s.restoreRows step
  (List.range rows).all (fun r =>
    s.stripeD ≤ ((List.range g1).filter fun k => (s.backUnit r k).isSome).length) &&
  (List.range (s.passengers step).length).all fun q =>
    (List.range g1).any fun k => (s.backUnit (rows + q) k).isSome

/-- Write the rebuilt units into the buffers committed at the snapshot. -/
def State.rebuildData (s : State) (step : Nat) : State :=
  let g1 := s.stripeG - 1
  let d := s.stripeD
  let units := s.payload step
  let rows := s.restoreRows step
  let s1 := (List.range rows).foldl (fun (t : State) r =>
    let ds := rebuildRow d fun k => if k < g1 then s.backUnit r k else none
    (List.range d).foldl (fun (t : State) j =>
      match units[r * d + j]? with
      | some (a, n) => t.write 0 a ((ds.getD j []).take n)
      | none => t) t) s
  let ps := s.passengers step
  (List.range ps.length).foldl (fun (t : State) q =>
    match ps[q]?, (List.range g1).findSome? fun k => s.backUnit (rows + q) k with
    | some (a, n), some bs => t.write 0 a (bs.take n)
    | _, _ => t) s1

/-! ### Resuming (R459, R470) -/

/-- The RESUME command, accepted and waiting. -/
def State.resumeCmd (s : State) : Option Cmd :=
  match s.cmdOf 0x06 with
  | some c => if c.started then some c else none
  | none => none

/-- The last steps of a resume (R459). -/
def State.finishResume (s : State) (step : Nat) (rb : Bool) : State :=
  let snap := if rb then step - 1 else 0
  let s := if rb then s.modRes fun r => { r with
      regs := { r.regs with commitGlb := stepWord (step - 1), commitDev := stepWord (step - 1) },
      owns := r.owns.filter fun o => o.2 < step, lastGroup := some (step - 1) }
    else (List.range (step - s.nextStep)).foldl (fun s _ =>
      s.recordGlobal s.nextStep (recStep s.snapStep)) s
  let s := s.tally 0x02 step 0 0 0 0 (BitVec.ofNat 64 step) (BitVec.ofNat 64 snap) (if rb then 1 else 0)
  let s := s.resCount (if rb then 32 else 16) 1
  let noSpare := s.res.noSpareR
  let s := s.modRes fun r => { r with
    stopped := false, stopFwd := false, stopElse := false, resumeV := [], resumeSent := false, rollNeed := false,
    filling := false, fillEnd := false,
    resumeAt := none, restoreGot := [], noSpareR := false, owedStop := [] }
  let s := (s.keepInsts step).beginFolds step
  let byCmd := s.host.st = .paused
  let s := s.setHost .running byCmd
  let s := match s.resumeCmd with
    | some c => s.complete c (if noSpare then .noSpare else .ok) [put 0 48 step]
    | none => s
  (s.redrain.permits step).stagePrepare

/-- A rollback whose data have all come back is finished. -/
def State.tryRestore (s : State) : State :=
  match s.res.resumeAt with
  | some step =>
    if !s.hasStripe || s.restoreReady (step - 1) then
      (if s.hasStripe then s.rebuildData (step - 1) else s).finishResume step true
    else s
  | none => s

/-- RESUME takes effect: it is passed on, and the device resumes, after restoring if it rolls back. -/
def State.doResume (s : State) (step : Nat) (rb : Bool) : State :=
  let s := (resChildren s.resHdr).foldl (fun s p =>
    s.sendOn (some p) (mkCtrl 0x09 s.nextStep [put 0 48 step ||| put 63 1 (b2n rb)])) s
  if rb then
    let s := s.modRes fun r => { r with resumeAt := some step }
    (if s.hasStripe && !s.res.filling then s.sendAllBack (step - 1) else s).tryRestore
  else s.finishResume step false

/-- The device's own recovery is done (R459, R465, R468, R539). -/
def State.recovered (s : State) : Bool :=
  s.job.isSome && s.res.rebuild.isNone && s.res.rebuildQ.isEmpty && s.res.lost.isEmpty && s.res.owedStop.isEmpty
    && !((List.range 6).any fun p => s.jobPort p && (s.port p).awayAt.isSome)
    && (!s.res.filling || s.res.fillEnd) && s.res.resumeAt.isNone && s.pwr.level = 0 && !s.restorePending

/-- Vote to resume, or at the root resume, when all is ready (R459, R500). A rollback is what this device's own damage or
loss forces (R445, R461, R468, R469); what forces one on another device reaches the root by no field of R426, so where a
STOP of another device, or a lost peer, may stand for that, whether the root rolls back is free (log entry 70). -/
def State.tryResume (s : State) : State :=
  let may := s.host.st = .recovering || (s.host.st = .paused && s.resumeCmd.isSome)
  if !may || s.res.resumeSent || !s.recovered
    || !((resChildren s.resHdr).all fun p => s.res.resumeV.contains p) then s
  else if resParent s.resHdr = 0xF then
    if s.res.rollNeed && s.snapStep.isNone then s else
    let (w, s) := if s.hasStripe && s.snapStep.isSome && !s.res.rollNeed && s.res.stopElse then s.fresh
      else ((0 : W64), s)
    let s := s.modRes fun r => { r with resumeSent := true }
    match s.snapStep with
    | some k => if s.res.rollNeed || bit w 0 then s.doResume (k + 1) true else s.doResume s.nextStep false
    | none => s.doResume s.nextStep false
  else if s.inSvc (resParent s.resHdr) then
    (s.modRes fun r => { r with resumeSent := true }).send (resParent s.resHdr) (mkCtrl 0x08 s.nextStep [])
  else s

def State.rxResumeVote (s : State) (p : Nat) : State :=
  (s.modRes fun r => { r with resumeV := insNat r.resumeV p }).tryResume

/-- RESUME from the parent. -/
def State.rxResume (s : State) (p : Nat) (w1 : W64) : State :=
  if p = resParent s.resHdr && s.res.resumeSent && (s.host.st = .recovering || s.host.st = .paused) then
    s.doResume (fld w1 0 48) (bit w1 63)
  else s

/-! ### SHARE and RESTORE packets (R442, R443) -/

def stTarget (k : Packet) : Nat := k.fA % 32
def stOwner (k : Packet) : Nat := k.fA / 32 % 16
def stSlotB (k : Packet) : Nat := k.fB % 2

/-- A STRIPE packet for another member (R442). -/
def State.stripeElse (s : State) (k : Packet) : Bool :=
  s.hasStripe && stTarget k ≠ 0x1F && stTarget k ≠ s.stripeMe

def State.forward (s : State) (k : Packet) : State :=
  s.sendOn (s.towards (stTarget k)) { k with w2 := 0 }

/-- The snapshot step a packet's 16 bits stand for: the nearest at or below the last global commit. -/
def State.snap16 (s : State) (v : Nat) : Nat :=
  let g := s.glbStep
  g - (g + 65536 - v) % 65536

/-- A SHARE for this device: into its region, and acknowledged when the owner's snapshot is whole; a drain that restarts
(R444) is then collected anew. -/
def State.rxShare (s : State) (p : Nat) (k : Packet) : State :=
  if s.stripeElse k then s.forward k
  else
    let o := stOwner k
    let slot := stSlotB k
    let base := s.slotAddr o slot
    let size := s.slotSize o slot
    if !s.hasStripe || !s.slotList.contains (o, slot) || k.addr < base || base + size < k.addr + 64 * k.len then
      s.rxRefuse p k .bounds true
    else
      let step := k.fC / 65536
      let s := s.write 0 k.addr k.body
      let old := s.res.shared.filter fun x => !(x.1 = o && x.2.1 = slot && x.2.2.1 ≠ step)
      let new := ((List.range k.len).map fun i => (o, slot, step, k.addr + 64 * i)).filter fun x => !(old.contains x)
      let l := old ++ new
      let s := s.modRes fun r => { r with shared := l }
      let mine := fun (x : Nat × Nat × Nat × Nat) => decide (x.1 = o) && decide (x.2.1 = slot) && decide (x.2.2.1 = step)
      if 64 * (l.filter mine).length = size then
        (s.modRes fun r => { r with shared := l.filter fun x => !mine x }).sendOn (s.towards o)
          (mkCtrl 0x05 (s.snap16 step) [put 0 4 o] o)
      else s

/-- A RESTORE for this device: into its restore area (R468); while the device is stopped it counts for the snapshot that its
STEP names. -/
def State.rxRestore (s : State) (p : Nat) (k : Packet) : State :=
  if s.stripeElse k then s.forward k
  else
    let base := Config.restoreBase s.jobId
    if !s.hasStripe || k.addr < base || base + Config.restoreSize s.jobId < k.addr + 64 * k.len then
      s.rxRefuse p k .bounds true
    else
      let s := s.write 0 k.addr k.body
      let l := (List.range k.len).map fun i =>
        let o := k.addr + 64 * i - base
        (k.fC / 65536, o / 65536, o % 65536 / 64)
      if !s.res.stopped then s
      else (s.modRes fun r => { r with
        restoreGot := r.restoreGot ++ l.filter fun x => !(r.restoreGot.contains x) }).tryRestore

/-! ### Rebuilds (R463–R466) -/

/-- The spare a rebuild takes: the lowest on the failed fold's die, else the lowest on the other (R463). -/
def State.pickSpare (s : State) (old : Nat) : Option Nat :=
  match s.res.spares.find? fun f => foldDie f = foldDie old with
  | some f => some f
  | none => s.res.spares.head?

/-- Slivers of a logical fold. -/
def slvFold (w : W64 × W64) : Nat := fld w.2 0 12
def slvLayer (w : W64 × W64) : Nat × Nat := (fld w.2 16 6, fld w.2 32 16)
def slvUnits (w : W64 × W64) : Nat := fld w.1 32 32 / 128

def State.sliversOf (s : State) (n : Nat) : List (W64 × W64) :=
  match s.job with
  | some j => j.slivers.filter fun w => slvFold w = n
  | none => []

/-- The adopter of an orphan (R466): it holds a sliver of each layer of which the orphan holds one (log entry 57). -/
def State.adopter (s : State) (n : Nat) : Option Nat :=
  let mine := s.sliversOf n
  let ok := (List.range 320).filter fun m =>
    let theirs := s.sliversOf m
    m ≠ n && fld (s.fldMapReg m) 0 12 ≠ 0xFFF && s.inService (s.physOf m)
      && mine.all (fun v => theirs.any fun w => slvLayer v = slvLayer w)
      && theirs.length + mine.length ≤ 32
  let load := fun (m : Nat) => (s.sliversOf m).foldl (fun k w => k + slvUnits w) 0
  ok.foldl (fun (b : Option Nat) m => match b with
    | some x => if load m < load x then some m else b
    | none => some m) none

/-- The orphan's slivers are appended to the adopter's, in fold order, and the folds' ranges follow. -/
def adoptSlivers (j : Job) (n m : Nat) : Job :=
  let of := fun (x : Nat) => j.slivers.filter fun w => slvFold w = x
  let lists := (List.range 320).map fun x =>
    if x = n then []
    else if x = m then of m ++ (of n).map fun w => (w.1, setFld w.2 0 12 m)
    else of x
  let (_, folds) := (List.range 320).foldl (fun (a : Nat × List (List W64)) x =>
    let l := (lists.getD x []).length
    (a.1 + l, a.2 ++ [(j.folds.getD x []).set 1 (put 0 32 a.1 ||| put 32 6 l)])) (0, [])
  { j with slivers := lists.flatten, folds := folds }

/-- NMBF, NUPD and NREADY lose the orphan's contribution (R467): to the layers that list it, to their branches, and to the
plans of those layers (log entry 57). -/
def lowerCounts (j : Job) (n : Nat) : Job :=
  let dec := fun (w : W64) lo len => setFld w lo len (fld w lo len - 1)
  let mine := j.layers.filter fun ly => (lyFolds ly).contains n
  { j with
    branch := (List.range j.branch.length).map fun b =>
      let w := j.branch.getD b 0
      if mine.any fun ly => lyBranch ly = b then dec w 32 9 else w,
    layers := j.layers.map fun ly => if (lyFolds ly).contains n then ly.set 0 (dec (wd ly 0) 48 9) else ly,
    plans := j.plans.map fun p =>
      if mine.any fun ly => lyBranch ly = planBranch p && lyLayer ly = planLayer p then p.set 7 (dec (wd p 7) 0 12) else p }

def State.setFldMap (s : State) (n : Nat) (w : W64) : State :=
  { s with cfg := { s.cfg with fldMap := SMap.set none s.cfg.fldMap n (some w) } }

/-- No healthy spare remains for a logical fold (R466). -/
def State.noSpare (s : State) (n old : Nat) : State :=
  let s := s.resBits stsNOSPARE true
  match (if resAdopt s.resHdr then s.adopter n else none) with
  | some m =>
    let s := s.modJob fun j => lowerCounts (adoptSlivers j n m) n
    let s := s.setFldMap n (setFld (setFld (s.fldMapReg n) 0 12 0xFFF) 28 12 m)
    let s := s.tally 0x51 s.nextStep 0 0 0 0 (BitVec.ofNat 64 n) (BitVec.ofNat 64 m) 0xFFF
    s.modRes fun r => { r with noSpareR := true, regs := { r.regs with orphans := r.regs.orphans + 1 } }
  | none => if s.jobLive then (s.resFault (16 + old) Status.noSpare.code).goFaulted else s

/-- Start the rebuild of a logical fold whose physical fold has failed. -/
def State.startRebuild (s : State) (n old : Nat) : State :=
  match s.pickSpare old with
  | some f => s.modRes fun r => { r with
      rebuild := some { lfold := n, old := old, spare := f, phase := .test }, spares := r.spares.filter (· ≠ f) }
  | none => s.noSpare n old

/-- Start rebuilds from the queue until one runs or the queue is empty. -/
def State.nextRebuild : Nat → State → State
  | 0, s => s
  | k + 1, s =>
    match s.res.rebuild, s.res.rebuildQ with
    | none, n :: rest =>
      State.nextRebuild k ((s.modRes fun r => { r with rebuildQ := rest }).startRebuild n (fld (s.fldMapReg n) 0 12))
    | _, _ => s

/-- Isolate a fold (R453, R463): its clock stops, what it held is released. -/
def State.isolate (s : State) (f : Nat) : State :=
  let s := (s.releaseAgents (foldAgents f)).resetFold f
  let s := s.stopClock f
  (s.updFold f fun v => { v with island := { v.island with failed := true } }).modRes fun r => { r with
    failedF := insNat r.failedF f, spares := r.spares.filter (· ≠ f) }

/-- The shepherd declares a fold failed (R451, R452, R464, R465). -/
def State.foldFailed (s : State) (f : Nat) : State :=
  if s.res.failedF.contains f then s
  else
    let log := s.logicalOf f
    let s := s.isolate f
    match s.res.rebuild, log with
    | some r, none =>
      if r.spare = f then
        let (st, s) := s.freeStatus
        ((s.modRes fun x => { x with rebuild := none }).raiseStop (16 + f) st 0 true).startRebuild r.lfold r.old
      else s
    | _, none => s
    | reb, some n =>
      let (st, s) := s.freeStatus
      let s := s.raiseStop (16 + f) st 0 true
      if reb.isSome then s.modRes fun x => { x with rebuildQ := x.rebuildQ ++ [n] } else s.startRebuild n f

/-- TEST: the spare's self-test ends. -/
def opTest (s : State) (pass : Bool) : State :=
  match s.res.rebuild with
  | some r =>
    if r.phase ≠ .test then s
    else if pass then s.modRes fun x => { x with rebuild := some { r with phase := .clear } }
    else (s.foldFailed r.spare).nextRebuild (s.res.rebuildQ.length + 1) |>.tryResume
  | none => s

/-- Write +0 to the whole store of a fold. -/
def State.clearStore (s : State) (f : Nat) : State :=
  let a := foldBase + foldSlot * f
  { s with mem := s.mem.filter fun c => !(a ≤ c.1 && c.1 < a + foldSize),
           ue := s.ue.filter fun u => !(a ≤ u.addr && u.addr < a + foldSize) }

/-- CLEAR: the spare's fold store is written +0 and its speculation slots are invalid. -/
def opClear (s : State) : State :=
  match s.res.rebuild with
  | some r =>
    if r.phase ≠ .clear then s
    else ((s.clearStore r.spare).resetFold r.spare).modRes fun x => { x with rebuild := some { r with phase := .map } }
  | none => s

/-- MAP: FLD_MAP names the spare, and the next rebuild starts. -/
def opMap (s : State) : State :=
  match s.res.rebuild with
  | some r =>
    if r.phase ≠ .map then s
    else
      let w := s.fldMapReg r.lfold
      let s := s.setFldMap r.lfold (put 0 12 r.spare ||| put 16 12 (satAdd 12 (fld w 16 12) 1))
      let s := s.updFold r.spare fun v => { v with fcSize := s.jobFc r.spare }
      let s := s.tally 0x51 s.nextStep 0 0 0 0 (BitVec.ofNat 64 r.lfold) (BitVec.ofNat 64 r.old)
        (BitVec.ofNat 64 r.spare)
      ((s.modRes fun x => { x with rebuild := none }).nextRebuild (s.res.rebuildQ.length + 1)).tryResume
  | none => s

/-! ### Peers (R427, R453, R462, R468, R469) -/

/-- Members of the stripe group that a port no longer reaches. -/
def State.beyond (s : State) (p : Nat) : List Nat :=
  let me := s.stripeMe
  (List.range s.stripeG).filter fun m =>
    m ≠ me && ((s.port p).role = 2 && me < m || (s.port p).role = 1 && m < me)

/-- What a lost peer means for a fill or a rollback under way (R469). -/
def State.lostHolder (s : State) (p : Nat) : State :=
  let gone := (s.res.lost.flatMap s.beyond).foldl (fun l m => insNat l m) []
  let needed := s.res.filling || s.res.resumeAt.isSome
  let fatal := needed && (!s.hasStripe || resP s.resHdr < gone.length
    || (gone.contains ((s.stripeMe + 1) % max 1 s.stripeG) && s.res.classes.contains clsM))
  if fatal && (s.res.rollNeed || s.res.resumeAt.isSome || s.portOf 3 = some p) then
    (s.resFault (8 + p) Status.noSpare.code).goFaulted
  else s

/-- A vote that went to a parent which has since left is sent again. -/
def State.revote (s : State) (p : Nat) : State :=
  if resParent s.resHdr = p then s.modRes fun r => { r with resumeSent := false } else s

/-- A peer is declared lost: a replacement will hold its S tensors only from a rollback (R445, R468). What the partner holds
is known from pairing; what another peer holds is not (log entry 70). -/
def State.losePeer (s : State) (p : Nat) : State :=
  if s.res.lost.contains p then s
  else
    let (st, s) := s.freeStatus
    let partner := s.portOf 3 = some p && s.res.pair.sizes
    let sLost := partner && s.partnerEnts.any fun e => e.2.2 = clsS
    let s := s.modRes fun r => { r with
      lost := insNat r.lost p, resumeV := r.resumeV.filter (· ≠ p),
      rollNeed := r.rollNeed || sLost, stopElse := r.stopElse || !partner }
    let s := s.revote p
    let s := s.updPort p fun x => { x with awayAt := none }
    let s := match (s.port p).st with
      | .active | .held => s.leave p none false
      | _ => s
    let s := (s.releaseAgents [8 + p]).raiseStop (8 + p) st p true
    let s := if s.res.filling && s.portOf 3 = some p then
        s.modRes fun r => { r with rollNeed := true, fillEnd := true }
      else s
    if s.jobLive then s.lostHolder p else s

/-- A port left service (R360, R457). -/
def State.portLeft (s : State) (p : Nat) : State :=
  if !s.jobPort p || s.job.isNone || s.res.lost.contains p then s
  else if s.jobLive then
    let s := (s.modRes fun r => { r with resumeV := r.resumeV.filter (· ≠ p) }).revote p
    (s.updPort p fun x => { x with awayAt := some s.now }).raiseStop (8 + p) Status.linkDown.code p true
  else s

/-- The fill that a replacement of the partner receives (R468): its tally, its M and MS tensors, and this device's
committed M and MS values for its mirror; addresses on the partner are open (log entry 37). -/
def State.fillPartner (s : State) : State :=
  match s.portOf 3 with
  | none => s
  | some p =>
    let s := s.updPair fun x => { x with fillOut := true, fillIn := true }
    let runs := (s.reserve + 0x10000, 0x400000, Config.partnerAddr 0 0) ::
      s.res.pair.copies.flatMap fun c =>
        let b := s.mirrorHeld c.1
        [(if b = 0 then c.2.2.1 else c.2.2.2, c.2.1, Config.partnerAddr (1 + b) c.1)]
    let s := runs.foldl (fun s r =>
      (dataPackets vcRES 0 0 [(r.2.2, s.bytesAt r.1 r.2.1)]).foldl (fun s k => s.send p k) s) s
    let s := (List.range s.prots.length).foldl (fun s i => if mirrored (s.cls i) then s.fillEntry i else s) s
    s.send p (mkCtrl 0x03 s.nextStep [])

/-! ### The tally read back (R468, R471) -/

/-- An entry whose CHECK is valid. -/
def entryValid (e : List W64) : Bool := wd e 7 = BitVec.ofNat 64 (crc32c (wordsBytes (e.take 7)))

/-- What one entry says of the registers that the tally restores. -/
def State.readEntry (s : State) (e : List W64) : State :=
  let step := fld (wd e 0) 16 48
  if fld (wd e 0) 8 4 ≠ 1 then s
  else match fld (wd e 0) 0 8 with
  | 0x02 =>
    if bit (wd e 6) 0 then
      let n := fld (wd e 5) 0 48
      (s.modRegs fun r => { r with commitGlb := stepWord n, commitDev := stepWord n }).modRes fun r => { r with
        owns := r.owns.filter fun o => o.2 ≤ n, lastGroup := some n }
    else s
  | 0x21 => s.modRegs fun r => { r with commitDev := stepWord step }
  | 0x22 => s.modRegs fun r => { r with
      commitGlb := stepWord step,
      snap := match ofRecStep (wd e 4) with
        | some k => stepWord k
        | none => r.snap }
  | 0x40 => s.modRes fun r => { r with owns := r.owns ++ [(s.stripeMe, step)] }
  | 0x41 => s.modRes fun r => { r with lastGroup := some step }
  | _ => s

/-- RES_TALLY, the commits and the snapshot as the kept tally gives them. -/
def State.readTally (s : State) : State :=
  let es := ((List.range 65536).map fun i => s.blockAt (s.poolBase + 64 * i)).filter entryValid
  let head := es.foldl (fun m e => max m ((wd e 1).toNat + 1)) 0
  let s := s.modRegs fun r => { r with tally := BitVec.ofNat 64 head, commitDev := 0, commitGlb := 0, snap := 0 }
  let s := s.modRes fun r => { r with owns := [], lastGroup := none }
  (List.range 65536).foldl (fun s i =>
    let q := head - 65536 + i
    match es.find? fun e => (wd e 1).toNat = q with
    | some e => s.readEntry e
    | none => s) s

/-- A port entered ACTIVE (R430, R462, R468, R471). -/
def State.portUp (s : State) (p : Nat) : State :=
  let x := s.port p
  if x.role = 6 || s.job.isNone then s
  else
    let id := (wd x.peer 3, hsRank x.peer)
    let other := match x.identity with
      | some old => decide (old ≠ id)
      | none => false
    let wasLost := s.res.lost.contains p
    let s := s.setPort p { x with awayAt := none, identity := some id, recAt := s.now }
    let s := s.modRes fun r => { r with lost := r.lost.filter (· ≠ p) }
    let s := if s.res.owedStop.contains p then
        (s.modRes fun r => { r with owedStop := r.owedStop.filter (· ≠ p) }).send p
          (mkCtrl 0x07 s.nextStep [put 0 8 Status.notReady.code ||| put 16 16 s.rank, put 0 12 2])
      else s
    let s := if s.hasPartner && x.role = 3 && (!s.res.pair.addrs || other || wasLost) then
        (s.updPair fun y => { y with refill := y.refill || (other && s.jobLive) }).startPairing
      else s
    let s := if s.jobLive && other && !wasLost then
        let (st, s) := s.freeStatus
        (s.raiseStop (8 + p) st p true).modRes fun r => { r with
          lost := r.lost.filter (· ≠ p), stopElse := true }
      else s
    s.tryResume

/-- PEER_LOST (R427). -/
def opPeerLost (s : State) (p : Nat) : State :=
  if s.jobPort p && s.inSvc p && s.job.isSome then
    { s with now := max s.now ((s.port p).recAt + 10000000) }.losePeer p
  else s

/-- PORT_RETURN_TIMEOUT (R462). -/
def opPortReturn (s : State) (p : Nat) : State :=
  match (s.port p).awayAt with
  | some t => if s.jobPort p && s.job.isSome then { s with now := max s.now (t + 1000000000) }.losePeer p else s
  | none => s

/-- BEAT_SEND: every 1,000,000 ticks (R427). -/
def opBeatSend (s : State) : State :=
  let s := { s with now := max s.now (s.res.beatAt + 1000000) }
  (s.modRes fun r => { r with beatAt := s.now }).ctrlAll 0x0A s.nextStep [] s.inSvc

/-- The tick from which the periods of an agent's beats count: a stopped clock beats in none (R451). -/
def State.beatsFrom (s : State) (agent : Nat) : Option Nat :=
  if 16 ≤ agent ∧ agent ≤ 351 then
    if (s.fold (agent - 16)).clocked then some (s.fold (agent - 16)).island.cycFrom else none
  else some s.cfg.bootAt

/-- HEARTBEAT_MISS (R451–R455): the fourth beat missed, so no sooner than four periods of 65,536 ticks after the agent's
clock started. Islands are named as in R610: the port logic of Pp by 8 + p. For a base die or a hub engine the manual names
nothing to release; the host's HUBM reset is what brings a hub engine back (R456). -/
def opHeartbeat (s : State) (agent : Nat) : State :=
  match s.beatsFrom agent with
  | none => s
  | some t =>
    let s := { s with now := max s.now (t + 262144) }
    if 16 ≤ agent ∧ agent ≤ 351 then s.foldFailed (agent - 16)
    else if agent = 2 then
      let (st, s) := s.freeStatus
      ({ s with sec := { s.sec with shepAt := some s.now } }.releaseAgents [2]).tally 0x50 s.nextStep 2 0 0 st 0 0 0
    else if 8 ≤ agent ∧ agent ≤ 13 then
      let s := s.releaseAgents [agent]
      match (s.port (agent - 8)).st with
      | .active | .held | .training => s.leave (agent - 8) none false
      | _ => s
    else s

/-- SHEPHERD_RESTART_TIMEOUT (R456): from now on only the host's HUBM reset brings the shepherd back. -/
def opShepherdTimeout (s : State) : State :=
  match s.sec.shepAt with
  | some t => { s with now := max s.now (t + 100000000), sec := { s.sec with shepGone := true } }
  | none => s

end Sys2Proof.Machine
end

