-- ==== Sys2Proof/Machine/Rx.lean ====
section
/-!
DEFINITION. Sys2Proof/Machine/Rx.lean: which received packet is performed next and what it does (R350–R357, R361,
R426).
-/
namespace Sys2Proof.Machine

/-! ### Kinds of received packets, one for each row of the table -/

inductive RxKind where
  | data | racc | signal | mailbox | wake | cmd | readReq | backupReq | resend | mirror | share | restore
  | time | credit
  | ctrl (kind : Nat)
  deriving DecidableEq, Repr

def rxKind (k : Packet) : RxKind :=
  match k.ptype with
  | 1 => .data
  | 2 => .racc
  | 3 => .signal
  | 4 =>
    match k.fA % 256 with
    | 0 => .mailbox
    | 1 => .wake
    | 2 => .cmd
    | 3 => .readReq
    | 0x10 => .backupReq
    | _ => .resend
  | 5 => .mirror
  | 6 =>
    match stripeOp k with
    | 0 => .share
    | 1 => .ctrl (fld (wd (recWords k) 0) 0 8)
    | _ => .restore
  | 7 => .time
  | _ => .credit

/-- A SIGNAL, an MSG or a control record goes only after every earlier packet of its channel (R353, R426). -/
def RxKind.ordered : RxKind → Bool
  | .data | .racc | .mirror | .share | .restore | .time | .credit => false
  | _ => true

/-- A packet that stays in the buffer: held for the fold domain (R357), for a READY (R384), for room in the tally
(R447), or a RESUME that meets a recovery still under way. -/
def State.rxWaiting (s : State) (k : Packet) : Bool :=
  s.heldDown k || match rxKind k with
    | .racc => s.raccWaits k
    | .ctrl 2 | .ctrl 5 | .ctrl 6 => s.tallyWaits
    | .ctrl 9 => (s.host.st = .recovering || s.host.st = .paused) && s.res.resumeSent &&
        (s.tallyWaits || !s.recovered)
    | _ => false

/-- The next packet of a channel that may be performed. -/
def State.rxNext (s : State) (p vc : Nat) : Option (Nat × Packet) :=
  let l := SMap.get [] (s.port p).rxq vc
  ((List.range l.length).filterMap fun i => (l[i]?).map fun k => (i, k)).find? fun x =>
    !s.rxWaiting x.2 && (!(rxKind x.2).ordered || x.1 = 0)

/-! ### DATA (R345, R351, R461) -/

/-- Units of committed M and MS buffers that are uncorrectable. -/
def State.restoreUnits (s : State) : Nat :=
  (s.ue.filter fun u => !u.corr && match s.ueEntry u.addr with
    | some i => mirrored (s.cls i)
    | none => false).length

/-- The pages of the pool, into which a device that is filled takes its tally (R468), also before its START. -/
def State.inPool (s : State) (a n : Nat) : Bool :=
  s.job.isSome && s.poolBase ≤ a && a + n ≤ s.poolBase + 0x200000 * s.poolPages

def State.dataStatus (s : State) (p : Nat) (k : Packet) : Status :=
  let n := 64 * k.len
  if (s.port p).role = 6 then
    match place k.addr with
    | .inter _ => s.accStatus 1 .hostWrite k.addr n
    | _ => .bounds
  else if (s.res.filling || s.host.st = .loaded) && (s.port p).role = 3 && k.vc = vcRES && s.inPool k.addr n then .ok
  else s.accStatus (8 + p) .write k.addr n

def State.rxData (s : State) (p : Nat) (k : Packet) : State :=
  match s.dataStatus p k with
  | .ok =>
    let head := k.fC % 64
    let tail := (k.fC >>> 8) % 64
    let before := s.restoreUnits
    let s := s.write (8 + p) (k.addr + head) ((k.body.take (64 * k.len - tail)).drop head)
    let n := before - s.restoreUnits
    if n = 0 then s else (s.resCount 48 n).tryResume
  | e => s.rxRefuse p k e true

/-! ### SIGNAL and MSG (R344, R354, R355) -/

def State.rxSignal (s : State) (p : Nat) (k : Packet) : State :=
  if 319 < k.fB then s.rxRefuse p k .bounds true else s.evtAddLogical k.fB (k.fA % 64) k.fC

/-- The agent number of an MSG (R332): 4 when the partner's shepherd sent it over the MIRROR port. -/
def State.msgAgent (s : State) (p : Nat) (k : Packet) : Nat :=
  if (s.port p).role = 3 && k.src = 2 then 4 else 8 + p

def State.rxMailbox (s : State) (p : Nat) (k : Packet) : State :=
  let n := (k.body.getD 8 0).toNat
  match s.mboxWrite n (s.msgAgent p k) (msgWord k) with
  | (s, .bounds) => s.rxRefuse p k .bounds false
  | (s, .deniedSecure) => s.rxRefuse p k .deniedSecure false
  | (s, .busy) => s.rxDiscard p k .busy
  | (s, _) => s

/-- CMD: the command block at ADDR, which must not lie in register space (R351), goes to the command processor;
which command slot a failure then names is open (log entry 43). -/
def State.rxCmd (s : State) (p : Nat) (k : Packet) : State :=
  if isRegSpace k.addr then s.rxRefuse p k .bounds false else
  let (w, s) := s.fresh
  s.accept (s.blockAt k.addr) (fld w 0 5) (some p)

/-- READ_REQ: up to 16 KiB from ADDR go back as DATA; how many units is open (log entry 44). -/
def State.rxReadReq (s : State) (p : Nat) (k : Packet) : State :=
  let (w, s) := s.fresh
  let n := 64 * (1 + fld w 0 8)
  let a := k.addr
  match (match place a with
    | .inter _ => s.accStatus 1 .hostRead a n
    | _ => .bounds) with
  | .ok =>
    let bs := s.moveBytes a n
    let s := s.corrected a n
    let s := match s.ueIn a n with
      | some u => s.consumeUE (8 + p) u
      | none => s
    (dataPackets vcRES (8 + p) 0 [((msgWord k).toNat % 2 ^ 48 / 64 * 64, bs)]).foldl (fun s k => s.send p k) s
  | e => s.rxRefuse p k e false

/-! ### Control records (R426) -/

def State.rxCtrl (s : State) (p kind : Nat) (k : Packet) : State :=
  let ws := recWords k
  let step := fld (wd ws 0) 16 48
  let w1 := wd ws 1
  let s := s.updPort p fun x => { x with recAt := s.now }
  match kind with
  | 0x01 => s.rxVote p step w1
  | 0x02 => s.rxGlobal p step w1
  | 0x03 =>
    let fill := s.res.filling
    let s := s.rxMirrorDone step
    if fill then s.readTally.unblockTally.tryResume else s
  | 0x04 => s.rxMirrorAck step
  | 0x05 => if s.stripeElse k then s.forward k else s.rxShareAck (fld w1 0 4) step
  | 0x06 => if s.stripeElse k then s.forward k else s.rxSnapOwn (fld w1 0 4) step
  | 0x07 => s.rxStop p k
  | 0x08 => s.rxResumeVote p
  | 0x09 => s.rxResume p w1
  | 0x0B => s.rxPair w1
  | _ => s

/-- MIRROR; a replacement of the partner whose addresses are now known is filled (R468). -/
def State.rxMirrorFill (s : State) (p : Nat) (k : Packet) : State :=
  let s := s.rxMirror p k
  if s.res.pair.refill && s.res.pair.addrs then (s.updPair fun x => { x with refill := false }).fillPartner else s

/-! ### Performing -/

def State.rxAct (s : State) (p : Nat) (k : Packet) : State :=
  match rxKind k with
  | .data => s.rxData p k
  | .racc => s.rxRacc p k
  | .signal => s.rxSignal p k
  | .mailbox => s.rxMailbox p k
  | .wake => s.raiseWake 4
  | .cmd => s.rxCmd p k
  | .readReq => s.rxReadReq p k
  | .backupReq => s.rxBackupReq p k
  | .resend => s.rxResend p k
  | .mirror => s.rxMirrorFill p k
  | .share => s.rxShare p k
  | .restore => s.rxRestore p k
  | .time => s.rxTime p k
  | .credit => s.rxCredit p k
  | .ctrl kind => s.rxCtrl p kind k

/-- A packet leaves the buffer and is performed; its credits go back. -/
def State.rxPerform (s : State) (p vc i : Nat) (k : Packet) : State :=
  let s := s.updPort p fun x => { x with rxq := SMap.upd [] x.rxq vc fun l => l.eraseIdx i }
  ((s.pktRec p 0x21 k).rxAct p k).giveCredits p

/-- A RACC packet that has come calls for its instance's windows; without room in the pool the instance waits (R374, R386). -/
def State.markWaits (s : State) (p : Nat) : State :=
  ((SMap.get [] (s.port p).rxq vcGRAD).filter fun k => k.ptype = ptRACC && s.raccWaits k).foldl (fun s k =>
    match s.planStep16 (raccPlan k) (k.fC / 65536) with
    | some step => (s.openInst (raccPlan k) step).allocInst (raccPlan k) step
    | none => s) s

/-- A row of the table acts on the next packet of a channel when that is a packet of the row's kind. -/
def State.rxRow (s : State) (p vc : Nat) (kind : RxKind) : State :=
  let s := s.markWaits p
  match s.rxNext p vc with
  | some (i, k) => if rxKind k = kind then s.rxPerform p vc i k else s
  | none => s

/-- Everything in the buffer that can be performed is performed. -/
def State.rxDrain : Nat → State → Nat → State
  | 0, s, _ => s
  | n + 1, s, p =>
    match (List.range 5).findSome? fun vc => (s.rxNext p vc).map fun x => (vc, x) with
    | some (vc, i, k) => State.rxDrain n (s.rxPerform p vc i k) p
    | none => s

def State.rxDrainAll (s : State) (p : Nat) : State := State.rxDrain ((s.port p).waitingCount + 1) s p

/-- Steps 2 to 5 of a port reset (R361): the port stays in RESET while a packet waits for the fold domain, a fold in Graze or
room in the pool. A record that waits for room in the tally, or a RESUME for the end of this device's recovery, is not
applied and is discarded. -/
def State.rxReset (s : State) (p : Nat) : State :=
  if (s.port p).st ≠ .reset then s
  else
    let s := s.rxDrainAll p
    if (s.port p).rxq.any fun q => q.2.any fun k => s.heldDown k || (rxKind k = .racc && s.raccWaits k) then s
    else s.portAgain p

end Sys2Proof.Machine
end

