-- ==== Sys2Proof/Machine/Settle.lean ====
section
/-!
DEFINITION. Sys2Proof/Machine/Settle.lean: what a step has found is acted on before the step ends: faults go to the
resilience engine (R457), failed folds to the shepherd (R452), ports that left or entered service (R360, R430, R471),
and port resets (R361).
-/
namespace Sys2Proof.Machine

/-- Act on one finding. -/
def State.handle (s : State) (d : Due) : State :=
  match d with
  | .fault agent status detail replay => s.raiseStop agent status detail replay
  | .foldFailed f => s.foldFailed f
  | .portLeft p => s.portLeft p
  | .portUp p => s.portUp p
  | .portReset p => s.rxReset p
  | .damage => s.scrubDamage
  | .tallyRoom => s.tallyRoom
  | .rouse f => s.grazeExit f
  | .awake => (List.range 6).foldl (fun s p => if (s.port p).st = .reset then s.rxReset p else s.rxDrainAll p) s

/-- Act on findings in order until none is left. -/
def settleN : Nat → State → State
  | 0, s => { s with due := [] }
  | n + 1, s =>
    match s.due with
    | [] => s
    | d :: rest => settleN n ({ s with due := rest }.handle d)

def settle (s : State) : State := settleN 4096 s

/-- The outcome of a command whose effect is `s`: what the step found is acted on, and the state is the next. -/
def done (s : State) : Host.Outcome State Fault Refusal := .next (settle s)

end Sys2Proof.Machine
end

