-- ==== Sys2Proof/Machine/Reset.lean ====
section
/-!
DEFINITION. Sys2Proof/Machine/Reset.lean: the WARM and COLD resets (reset domains of the scope chapter; R252, R253, R540,
R642), and the settings that start-up and CONFIGURE apply (R648, R649).
-/
namespace Sys2Proof.Machine

/-- Whether an address lies in a fold store. -/
def inFoldStore (a : Nat) : Bool :=
  match place a with
  | .store .. => true
  | _ => false

/-- The pages the kept job's table marks S (R643): while the kept job is loaded, those of its table. -/
def State.keptPages (s : State) : List Nat :=
  match s.job, s.cfg.pages with
  | some _, some m =>
    if bit s.res.regs.kept 48 && s.res.regs.keptJob = s.jobWord 1 then
      (m.filter fun x => x.2 &&& pgS ≠ 0).map fun x => x.1
    else s.cfg.keptS
  | _, _ => s.cfg.keptS

/-- The healthy spares, with the one that a rebuild under way has taken: WARM ends the rebuild (R476). -/
def Res.allSpares (r : Res) : List Nat :=
  match r.rebuild with
  | some b => if r.failedF.contains b.spare then r.spares else insNat r.spares b.spare
  | none => r.spares

/-- Everything a WARM reset resets; the start-up of R642 follows. -/
def State.warmClear (s : State) : State :=
  { s with
    mem := s.mem.filter fun c => !inFoldStore c.1,
    ue := s.ue.filter fun u => !inFoldStore u.addr,
    folds := SMap.remap {} s.folds fun _ (v : Fold) =>
      { resets := v.resets + 1, regs := { memErr := v.regs.memErr },
        island := { failed := v.island.failed, cycFrom := s.now } },
    dies := SMap.remap {} s.dies fun _ (v : Die) => { v with watch := [] },
    ports := SMap.remap {} s.ports fun _ (x : Port) => { identity := x.identity, regs := { linkCnt := x.regs.linkCnt } },
    col := {},
    res := { regs := { kept := s.res.regs.kept, keptJob := s.res.regs.keptJob },
             failedF := s.res.failedF, spares := s.res.allSpares },
    job := none,
    host := { perst := s.host.perst, msi := s.host.msi, aerErr := s.host.aerErr, aerHdr := s.host.aerHdr,
              cfgRegs := s.host.cfgRegs, aspm := s.host.aspm, l1 := s.host.l1 },
    mbx := {},
    pwr := { s.pwr with
      vinMin := 0xFFFF, stopAt := none, state := 0, entering := none, exiting := none, held := false, wakes := [],
      ann := none, retryAt := none, cap := 3800, capped := 0, tDieMax := 0, tStackMax := 0,
      reg := 0, cnt := 0, timer := 0, timerAt := 0 },
    sec := { s.sec with
      debug := 0, hostN := none, jtagN := none, fuse := none, jtagRep := 0, replies := [], buf := [], doe := [],
      shepAt := none, shepGone := false },
    dbg := State.reset.dbg,
    cfg := { s.cfg with
      auxPort := none, pages := none, keptS := s.keptPages, loading := none,
      staged := none, stageSt := 0, stageLast := 0, peerWord := none },
    due := [] }

/-- A WARM reset is raised (PERST#, WARM_RESET, R597). Before the first start-up has ended there is nothing to reset. -/
def State.warmReset (s : State) : State :=
  match s.cfg.boot with
  | .up | .warm | .noImage =>
    let s := s.warmClear
    { s with cfg := { s.cfg with
      boot := if s.cfg.boot = .noImage then .noImage else .warm, bootAt := s.now } }
  | _ => s

/-- The die rails go down: what the always-on island, the fuses and the outside world hold is all that stays. -/
def State.railsOff (s : State) : State :=
  { State.reset with
    now := s.now, free := s.free, rdata := s.rdata, pending := s.pending,
    dies := SMap.remap {} s.dies fun _ (v : Die) => { hard := v.hard, used := v.hardUsed, hardUsed := v.hardUsed },
    host := { perst := s.host.perst, msi := s.host.msi, aerErr := s.host.aerErr, aerHdr := s.host.aerHdr },
    pwr := { samples := s.pwr.samples, filtered := s.pwr.filtered, pIn := s.pwr.pIn, okFrom := s.pwr.okFrom,
             annSeq := s.pwr.annSeq, lastStep := s.pwr.lastStep, pmbTx := s.pwr.pmbTx,
             tDie := s.pwr.tDie, tStack := s.pwr.tStack, trip := s.pwr.trip, cause := s.pwr.cause,
             telem := s.pwr.telem, sa := s.pwr.sa, i3c := s.pwr.i3c, dynAddr := s.pwr.dynAddr,
             devIdAon := s.pwr.devIdAon, sysclk := s.pwr.sysclk },
    sec := { level := s.sec.level, svnFloor := s.sec.svnFloor, rootRev := s.sec.rootRev, tap := s.sec.tap,
             pins := s.sec.pins, pinsWait := s.sec.pinsWait },
    cfg := { boot := .aon } }

/-- A COLD reset with a cause of R570. -/
def State.coldReset (s : State) (cause : Nat) : State :=
  let s := s.railsOff
  { s with pwr := { s.pwr with cause := cause, okFrom := none } }

/-! ### Settings (R648, R649) -/

def setJobSign (w : List W64) : Bool := bit (wd w 1) 0
def setNsAllow (w : List W64) : Bool := bit (wd w 1) 1
def setAux (w : List W64) : Option Nat := if bit (wd w 1) 2 then some (fld (wd w 1) 4 3) else none
def setRegAddr (w : List W64) : Nat := fld (wd w 1) 8 7
def setSetpoint (w : List W64) : Nat := if fld (wd w 1) 16 16 = 0 then 40000 else fld (wd w 1) 16 16
def setCap (w : List W64) : Nat := if fld (wd w 2) 0 12 = 0 then 3800 else fld (wd w 2) 0 12

/-- Every port takes the role that the job image, or without a job the settings, give it. -/
def State.setRoles (s : State) : State :=
  let ports := match s.job with
    | some j => j.ports
    | none => []
  (List.range 6).foldl (fun s p => s.setRole p (jobRole ports s.cfg.auxPort p)) s

/-- Apply a cap, a setpoint and an AUX port. -/
def State.applySettings (s : State) (cap setpoint : Nat) (aux : Option Nat) : State :=
  { s with
    pwr := { s.pwr with cap := put 0 12 cap, wantSet := setpoint },
    cfg := { s.cfg with auxPort := aux } }.setRoles

/-- The settings of the running image. -/
def State.imageSettings (s : State) : State :=
  let w := s.cfg.settings
  s.applySettings (setCap w) (setSetpoint w) (setAux w)

end Sys2Proof.Machine
end

