-- ==== Sys2Proof/Machine/Power.lean ====
section
/-!
DEFINITION. Sys2Proof/Machine/Power.lean: the supply monitor (R535–R541), the feed regulator (R542–R550), power states
and wakes (R551–R557), thermal limits (R558–R560), boost and the cap (R561–R563), and the I3C target (R684–R686).
-/
namespace Sys2Proof.Machine

def State.updPwr (s : State) (g : Pwr → Pwr) : State := { s with pwr := g s.pwr }

/-- The start-up is over and the hub runs. -/
def State.hubUp (s : State) : Bool := s.hubOn && (s.cfg.boot = .up || s.cfg.boot = .noImage)

/-- Every fold runs at the nominal clock at most. -/
def State.noBoost (s : State) : State :=
  { s with folds := SMap.remap {} s.folds fun _ (v : Fold) => { v with island := { v.island with boostMhz := 1500 } } }

/-! ### The supply monitor -/

/-- The mean of the last four samples, in millivolts. -/
def meanSupply (l : List Int) : Nat :=
  if l.isEmpty then 0 else (l.foldl (· + ·) 0 / (l.length : Int)).toNat

/-- The level that a filtered supply calls for (R536). -/
def supplyLevel (mv : Nat) : Nat := if mv < 32500 then 3 else if mv < 34000 then 2 else if mv < 35000 then 1 else 0

/-- Flash and fuse writes in progress are cut short (R538). -/
def State.nvCut (s : State) : State :=
  { s with
    cfg := { s.cfg with flashJob := s.cfg.flashJob.map fun j => { j with cut := true } },
    sec := { s.sec with fuse := s.sec.fuse.map fun j => { j with cut := true } } }

/-- A request that ended with SUPPLY_LOW before it was whole is counted (R538). -/
def State.nvEnd (s : State) (st : Status) : State :=
  if st = .supplyLow then s.updPwr fun p => { p with cnt := bumpFld p.cnt 48 16 1 } else s

/-- The actions of the thresholds that the filtered supply has newly crossed (R536–R539). -/
def State.supplyAct (s : State) (lv : Nat) : State :=
  let old := s.pwr.level
  let s := s.updPwr fun p => { p with level := max old lv }
  let s := if old < 1 && 1 ≤ lv then
      ((s.updPwr fun p => { p with cnt := bumpFld p.cnt 0 16 1 }).noBoost).raise 4
    else s
  let s := if old < 2 && 2 ≤ lv then s.nvCut else s
  if old < 3 && 3 ≤ lv && s.running then s.updPwr fun p => { p with stopAt := some s.now } else s

/-- What R561 and R558 demand of a boosted fold, the fold's own clock apart. -/
def State.mayBoost (s : State) : Bool :=
  let p := s.pwr
  s.hubUp && p.level = 0 && 38000 ≤ p.filtered && p.tDie < 85 && p.tStack < 80 && p.capped = 0
    && p.pIn + 100 ≤ fld p.cap 0 12 && !(p.therm.contains 0)

/-- Boost ends as soon as a condition of R561 does. -/
def State.checkBoost (s : State) : State := if s.mayBoost then s else s.noBoost

/-- SUPPLY_SAMPLE: the input in millivolts and the mean draw, 1,000 ticks after the sample before (R535). -/
def opSample (s : State) (mv : Int) (watts : Nat) : State :=
  let s := { s with now := max s.now (s.pwr.sampleAt + 1000) }
  let l := (mv :: s.pwr.samples).take 4
  let f := meanSupply l
  let s := s.updPwr fun p => { p with
    samples := l, sampleAt := s.now, filtered := f, pIn := watts, vinMin := min p.vinMin f,
    okFrom := if f < 36000 then none else match p.okFrom with
      | some t => some t
      | none => some s.now,
    above := if f < 35500 then none else match p.above with
      | some t => some t
      | none => some s.now }
  match s.cfg.boot with
  | .noPower => s
  | _ =>
    if 46000 < f then s.coldReset 2
    else if !s.hubOn || s.pwr.state = 4 then s
    else (s.supplyAct (supplyLevel f)).checkBoost

/-- SUPPLY_LEVEL_CLEAR: every level clears together, since a lower threshold clears only with all above it. -/
def opLevelClear (s : State) : State :=
  match s.pwr.above with
  | some t =>
    if s.pwr.level = 0 || !s.hubOn then s
    else (({ s with now := max s.now (t + 1000000) }).updPwr fun p => { p with level := 0 }).tryResume
  | none => s

/-- ORDERLY_STOP_DEADLINE (R539). -/
def opStopDeadline (s : State) : State :=
  match s.pwr.stopAt with
  | some t => if s.running then { s with now := max s.now (t + 5000000) }.orderlyStop else s
  | none => s

/-- BROWN_OUT, POWER_STAGE: a COLD reset. -/
def State.lost (s : State) (cause : Nat) : State :=
  match s.cfg.boot with
  | .noPower => s
  | _ => s.coldReset cause

/-- POWER_UP (R676). -/
def opPowerUp (s : State) (sa : Nat) (sysclk : Bool) : State :=
  if s.hubOn || (s.cfg.boot ≠ .noPower && s.cfg.boot ≠ .aon) then s
  else
    { s with
      pwr := { s.pwr with sa := sa, i3c := true, sysclk := sysclk, okFrom := some s.now,
                          cause := if s.cfg.boot = .noPower then 0 else s.pwr.cause },
      cfg := { s.cfg with boot := .aon } }

/-! ### The feed regulator -/

/-- The setpoint the device asks for (R545). -/
def State.wantSetpoint (s : State) : Nat := if s.foldsDown then 38000 else s.pwr.wantSet

/-- PWR_REG.PEC_ERR. -/
def State.pecErr (s : State) (n : Nat) : State := s.updPwr fun p => { p with reg := bumpFld p.reg 48 8 n }

/-- A PMBus transaction that took place. -/
def State.pmbus (s : State) (code : Nat) (bytes : List Byte) : State :=
  s.updPwr fun p => { p with pmbTx := p.pmbTx ++ [(code, bytes)] }

/-- Send MFR_STEP (R544): for a load step `goal` is the draw aimed at, for a setpoint change the millivolts. -/
def State.announce (s : State) (kind goal : Nat) : State :=
  let seq := (s.pwr.annSeq + 1) % 256
  let value := if kind = 2 then goal else if kind = 0 then goal - s.pwr.granted else s.pwr.granted - goal
  let ramp := if kind = 2 then 0 else ceilDiv value 10
  let block := leBytes 1 seq ++ leBytes 1 kind ++ leBytes 2 value ++ leBytes 2 ramp
  (s.pmbus 0xD0 block).updPwr fun p => { p with
    annSeq := seq, lastStep := block, retryAt := none,
    ann := some { seq := seq, kind := kind, value := value, goal := goal, at_ := s.now, polled := s.now },
    granted := if kind = 1 && 1 ≤ p.level then goal else p.granted }

/-- MFR_STEP (R544, R545, R548, R549). A transaction is tried four times at most (R542). -/
def opMfrStep (s : State) (kind value failures : Nat) : State :=
  let ok := if kind = 2 then value = s.wantSetpoint && value ≠ s.pwr.setpoint
    else 0 < value && value < 65536 && (kind = 0 || value ≤ s.pwr.granted)
  if !s.hubOn || s.pwr.ann.isSome || s.pwr.noAck || !ok then s
  else
    let s := s.pecErr (min failures 4)
    if 4 ≤ failures then s.updPwr fun p => { p with noAck := true, stepAt := s.now }
    else s.announce kind (if kind = 2 then value else if kind = 0 then s.pwr.granted + value else s.pwr.granted - value)

/-- No acknowledgement in time, or a refusal (R546). -/
def State.annTimeout (s : State) (a : Announce) : State :=
  let s := (s.updPwr fun p => { p with ann := none, reg := bumpFld p.reg 16 16 1 }).raise 4
  if a.kind = 1 then s.updPwr fun p => { p with granted := a.goal, acked := a.goal }
  else s.updPwr fun p => { p with retryAt := some (a.kind, a.goal, s.now + 10000000) }

/-- MFR_STEP_ACK: the two bytes read, 50,000 ticks after the read before (R545). -/
def opMfrAck (s : State) (b0 b1 : Byte) (failures : Nat) : State :=
  match s.pwr.ann with
  | none => s
  | some a =>
    let s := { s with now := max s.now (a.polled + 50000) }
    let s := (s.pecErr (min failures 4)).updPwr fun p => { p with ann := some { a with polled := s.now } }
    if 4 ≤ failures then s
    else
      let s := s.pmbus 0xD1 [b0, b1]
      if b0.toNat ≠ a.seq then s
      else if b1.getLsbD 1 then s.annTimeout a
      else if b1.getLsbD 0 then
        s.updPwr fun p => { p with
          ann := none, reg := setFld p.reg 8 8 a.seq,
          granted := if a.kind = 2 then p.granted else a.goal,
          acked := if a.kind = 2 then p.acked else a.goal,
          setpoint := if a.kind = 2 then a.goal else p.setpoint }
      else s

/-- ANNOUNCE_TIMEOUT: 2,000,000 ticks (R546). -/
def opAnnTimeout (s : State) : State :=
  match s.pwr.ann with
  | some a => { s with now := max s.now (a.at_ + 2000000) }.annTimeout a
  | none => s

/-- REANNOUNCE: 10,000,000 ticks later (R546). -/
def opReannounce (s : State) : State :=
  match s.pwr.retryAt, s.pwr.ann with
  | some (kind, goal, t), none => { s with now := max s.now t }.announce kind goal
  | _, _ => s

/-- NO_ACK_STEP: the granted draw moves to a new value (R548). -/
def opNoAckStep (s : State) (watts : Nat) : State :=
  if s.pwr.noAck && watts ≤ s.pwr.granted + 500 && s.pwr.granted ≤ watts + 500 then
    let s := { s with now := max s.now (s.pwr.stepAt + 2000000) }
    s.updPwr fun p => { p with granted := watts, acked := watts, stepAt := s.now }
  else s

/-- TELEMETRY (R543): for operators only, every 10,000,000 ticks. -/
def opTelemetry (s : State) (vin iout pout failures : Nat) : State :=
  if !s.hubOn then s
  else
    let s := { s with now := max s.now (s.pwr.telemAt + 10000000) }.pecErr failures
    let s := ((s.pmbus 0x88 (leBytes 2 vin)).pmbus 0x8C (leBytes 2 iout)).pmbus 0x96 (leBytes 2 pout)
    s.updPwr fun p => { p with telem := [vin, iout, pout], telemAt := s.now }

/-- SMBALERT (R550). -/
def opAlert (s : State) (status failures : Nat) : State :=
  if !s.hubOn then s
  else
    let s := s.pecErr (min failures 4)
    let s := if 4 ≤ failures then s
      else (s.pmbus 0x79 (leBytes 2 status)).updPwr fun p => { p with reg := setFld p.reg 32 16 status }
    (s.pmbus 0x03 []).raise 4

/-! ### Graze (R552) -/

/-- The four conditions of R552. -/
def Fold.idle (v : Fold) : Bool :=
  v.matQ.isEmpty && v.matRun.isEmpty && v.strQ.isEmpty && (v.ctxs.all fun c => c.2.isNone) &&
  v.cores.all fun x =>
    x.2.chainQ.isEmpty && x.2.inflight.isEmpty && x.2.threads.all fun t => t.2.st ≠ .ready && t.2.st ≠ .running

def opGrazeEnter (s : State) (f : Nat) : State :=
  let v := s.fold f
  if !s.hubUp || !v.clocked || !v.idle then s
  else
    let n := s.cyclesOf f
    let s := (s.foldRec f 2 n).pmc f 0x03 1
    s.updFold f fun v => { v with island := { v.island with graze := true, cycBase := n } }

/-! ### Rest, Deep and Off (R551–R557) -/

/-- The target of a SET_POWER command. -/
def Cmd.target (c : Cmd) : Nat := fld (wd c.words 2) 0 3

/-- The security core's approval (R603). -/
def State.powerApproved (s : State) (target : Nat) : Bool :=
  s.sec.fuse.isNone && s.sec.replies.isEmpty && !(target = 4 && s.sec.tap = 0x10)

/-- SET_POWER: checks, and the start of an entry or of an exit. -/
def opSetPower (s : State) : State :=
  match s.cmdOf 0x0B with
  | none => s
  | some c =>
    if c.started then s
    else
      let t := c.target
      let st := firstFail [
        (t = 1, .unsupported),
        (5 ≤ t, .bounds),
        (t = 4 && s.host.st ≠ .offline, .notInState),
        ((t = 3 || t = 4) && (s.cfg.flashJob.isSome || s.sec.fuse.isSome), .busy),
        (2 ≤ t && !s.powerApproved t, .deniedSecure)]
      if st ≠ .ok then s.complete c st []
      else if t = s.pwr.state && s.pwr.exiting.isNone then s.complete c .ok [BitVec.ofNat 64 t, 0]
      else
        let s := s.updCmd c fun d => { d with started := true }
        let s := s.updPwr fun p => { p with reqAt := s.now }
        if t = 0 then s.raiseWake 6 else s.updPwr fun p => { p with entering := some (t, s.now) }

/-- The SET_POWER under way completes with the state reached. -/
def State.powerReached (s : State) (t : Nat) : State :=
  match s.cmdOf 0x0B with
  | some c =>
    if c.started then s.complete c .ok [BitVec.ofNat 64 t, BitVec.ofNat 64 (s.now - s.pwr.reqAt)] else s
  | none => s

/-- Entry into Rest or Deep invalidates the caches of a fold (R252). -/
def State.dropCaches (s : State) (f : Nat) : State :=
  let v := s.fold f
  if v.fc.isEmpty && v.cores.all fun x => x.2.l1d.isEmpty && x.2.l1i.isEmpty then s
  else s.updFold f fun v => { v with
    fc := [], cores := v.cores.map fun (c, x) => (c, { x with l1d := [], l1i := [], l1iBad := [] }) }

/-- POWER_ENTRY_DONE: an entry that follows an exit still under way comes after it. -/
def opEntryDone (s : State) : State :=
  match s.pwr.entering, s.pwr.exiting with
  | some (t, _), none =>
    if t = 4 then
      let s := s.railsOff
      s.updPwr fun p => { p with state := 4 }
    else
      let s := (List.range 336).foldl (fun s f => (s.stopClock f).dropCaches f) s
      let s := State.spillAll ((s.trc 0).buf.length) s 0
      let s := State.spillAll ((s.trc 1).buf.length) s 1
      let s := (s.updPwr fun p => { p with state := t, entering := none }).powerReached t
      if s.packetHeld then s.raiseWake 4 else s
  | _, _ => s

/-- PWR_WAKE_LAST for the wakes so far (R556, R568). -/
def State.wakeRec (s : State) : State :=
  match s.pwr.wakes with
  | [] => s
  | w :: _ =>
    let first := s.pwr.wakes.foldl (fun (b : Nat × Nat) x =>
      if x.2 < b.2 || (x.2 = b.2 && x.1 < b.1) then x else b) w
    let pend := s.pwr.wakes.foldl (fun n x => if x.1 = first.1 then n else n ||| 2 ^ x.1) 0
    s.updPwr fun p => { p with
      wakeLast := put 0 3 first.1 ||| put 3 3 p.state ||| put 8 8 pend ||| put 16 48 first.2 }

/-- POWER_EXIT. -/
def opPowerExit (s : State) : State :=
  if !s.foldsDown || s.pwr.entering.isSome || s.pwr.exiting.isSome || s.pwr.wakes.isEmpty then s
  else if s.pwr.filtered < 35000 then s.updPwr fun p => { p with held := true }
  else
    let s := (s.updPwr fun p => { p with held := false, exiting := some s.now }).wakeRec
    if s.pwr.state = 3 && !s.pwr.noAck && s.pwr.ann.isNone then s.announce 0 (s.pwr.granted + 565) else s

/-- A byte of the fold store that Deep keeps (R251). -/
def keeperByte (a : Nat) : Bool := 896 ≤ (a - foldBase) % 1024

/-- The fill of R253 after Deep: everything but the keeper bytes. -/
def State.deepFill (s : State) : State :=
  let s := { s with mem := s.mem.filter fun c => !(inFoldStore c.1 && !keeperByte c.1),
                    ue := s.ue.filter fun u => !(inFoldStore u.addr && !keeperByte u.addr) }
  s.resetFolds

/-- POWER_EXIT_DONE: the fold domain is back in Run. -/
def opExitDone (s : State) : State :=
  match s.pwr.exiting with
  | none => s
  | some _ =>
    let deep := s.pwr.state = 3
    let s := s.wakeRec
    let s := s.updPwr fun p => { p with state := 0, exiting := none, wakes := [] }
    let s := if deep then s.deepFill else s
    let s := (List.range 336).foldl (fun s f => s.clockOn f) s
    let s := (s.resumeAll 0).resumeAll 1
    let s := ((List.range 336).foldl (fun s f => s.goOn f) s).whistles
    let s := (List.range 6).foldl (fun s p =>
      if (s.port p).st = .reset then { s with due := s.due ++ [Due.portReset p] }
      else s.rxDrainAll p) s
    let s := match s.cfg.staged with
      | some g => if s.running then s
        else { s with cfg := { s.cfg with staged := some { g with answers := [], partner := false } } }.stagePrepare
      | none => s
    s.powerReached 0

/-- TIMER: the first tick since PWR_TIMER was written whose low 48 bits are WAKE_AT (R555, R572). -/
def opTimer (s : State) : State :=
  if !s.hubOn || !bit s.pwr.timer 48 then s
  else
    let at_ := s.pwr.timerAt + (fld s.pwr.timer 0 48 + 2 ^ 48 - s.pwr.timerAt % 2 ^ 48) % 2 ^ 48
    ({ s with now := max s.now at_ }.updPwr fun p => { p with timer := setFld p.timer 48 1 0 }).raiseWake 5

/-! ### Temperature, boost and the cap -/

/-- A reading of the hottest sensor of a group. -/
def State.reading (s : State) (stk : Bool) (t : Nat) : State :=
  let s := if t ≤ 90 then s else s.updPwr fun p => { p with hotAt := SMap.set 0 p.hotAt (b2n stk) s.now }
  (if stk then s.updPwr fun p => { p with tStack := t, tStackMax := max p.tStackMax t }
  else s.updPwr fun p => { p with tDie := t, tDieMax := max p.tDieMax t }).checkBoost

/-- Some fold is boosted. -/
def State.boosted (s : State) : Bool := s.folds.any fun x => 1500 < x.2.island.boostMhz

/-- THERMAL_THROTTLE: one step of R559. -/
def opThrottle (s : State) (stk : Bool) (temp : Nat) : State :=
  if !s.hubOn then s
  else
    let was := s.boosted
    let s := s.reading stk temp
    let g := b2n stk
    if temp < 95 then s
    else
      let s := if s.pwr.therm.contains g then s
        else (s.updPwr fun p => { p with therm := insNat p.therm g, cnt := bumpFld p.cnt 32 16 1 }).raise 4
      if was then s.noBoost
      else if stk then s.updPwr fun p => { p with stackPct := max 50 (p.stackPct - 10) }
      else s.updPwr fun p => { p with thermMhz := max 750 (p.thermMhz - 100) }

/-- THERMAL_RELEASE: 10,000,000 ticks at 5 degrees below the limit (R559). -/
def opRelease (s : State) (stk : Bool) (temp : Nat) : State :=
  if !s.hubOn then s
  else
    let s := s.reading stk temp
    if 90 < temp then s
    else { s with now := max s.now (SMap.get 0 s.pwr.hotAt (b2n stk) + 10000000) }.updPwr fun p => { p with
      therm := p.therm.filter (· ≠ b2n stk),
      thermMhz := if stk then p.thermMhz else 1500, stackPct := if stk then 100 else p.stackPct }

/-- THERMAL_TRIP (R560, R678). -/
def opTrip (s : State) (stk : Bool) (temp : Nat) : State :=
  let s := s.reading stk temp
  if temp < (if stk then 105 else 115) || !s.hubOn then s
  else (s.coldReset 3).updPwr fun p => { p with trip := true }

/-- BOOST: raised while R561 and R558 allow it, else removed. -/
def opBoost (s : State) (f mhz : Nat) : State :=
  let may := s.mayBoost && 1500 ≤ mhz && mhz ≤ 1800
  s.updFold f fun v => { v with island := { v.island with boostMhz := if may then mhz else 1500 } }

/-- POWER_CAP_ENFORCE: the mean draw of a window (R563), of 1,000,000 ticks or, where `short`, of 100,000, which may reach
105 % of the cap. Where the window's limit is reached one measure more applies; below it the latest is undone. -/
def opCapEnforce (s : State) (short : Bool) (watts : Nat) : State :=
  if !s.hubOn then s
  else
    let s := if short then s else s.updPwr fun p => { p with pIn := watts }
    if fld s.pwr.cap 0 12 * (if short then 105 else 100) ≤ 100 * watts then
      (s.updPwr fun p => { p with capped := min 4 (p.capped + 1) }).noBoost
    else s.updPwr fun p => { p with capped := p.capped - 1 }

/-- A write to PWR_CAP (R562, R566). -/
def State.writeCap (s : State) (v : W64) : State :=
  let n := fld v 0 12
  let m := max 2000 (min n 3800)
  let old := bit s.pwr.cap 12 && !bit v 12
  (s.updPwr fun p => { p with cap := put 0 12 m ||| put 12 1 (b2n (old || m ≠ n)) }).checkBoost

/-! ### I3C (R684–R686) -/

/-- The code of R551 for the fold domain: Graze when every fold that has not failed is grazed. -/
def State.powerCode (s : State) : Nat :=
  if s.pwr.state = 0 && (List.range 336).all (fun f => (s.fold f).island.graze || (s.fold f).island.failed) then 1
  else s.pwr.state

/-- HST_STS.STATE: while it does not read OFFLINE for the first time yet, some other state (log entry 45). -/
def State.stsState (s : State) : Nat := if s.host.ready then s.hostCode else 1 + Config.startState s.now % 6

/-- The management block (R685). -/
def State.mgmtBlock (s : State) : List Byte :=
  let on := fun (n : Nat) => if s.hubOn then n else 0
  leBytes 2 0x9620 ++ leBytes 1 (on 1) ++ leBytes 1 0 ++
  leBytes 8 (if s.pwr.devIdAon then Config.deviceId.toNat else 0) ++
  leBytes 1 s.powerCode ++ leBytes 1 (if s.hubOn then s.stsState else 0xFF) ++ leBytes 1 s.pwr.level ++
  leBytes 1 (on s.pwr.cause) ++ leBytes 2 s.pwr.filtered ++ leBytes 1 (on s.pwr.tDie) ++ leBytes 1 (on s.pwr.tStack) ++
  leBytes 2 s.pwr.pIn ++ leBytes 1 (fld s.pwr.wakeLast 0 3) ++ leBytes 9 0

def opI3cRead (s : State) (len : Nat) : State := if s.pwr.i3c then s.answer (s.mgmtBlock.take len) else s

/-- A private write: its bytes are discarded; it wakes the device (R555, R686). -/
def opI3cWrite (s : State) : State :=
  if !s.pwr.i3c then s
  else if s.pwr.state = 4 then
    s.updPwr fun p => { p with state := 0, cause := 5, wakeLast := put 0 3 1 ||| put 3 3 4 }
  else s.raiseWake 1

/-- The provisioned ID (R481, R684). -/
def State.provisionedId (s : State) : Nat :=
  0x02D6 * 2 ^ 33 + 2 ^ 32 + (if s.pwr.devIdAon then Config.deviceId.toNat % 2 ^ 32 else 0)

/-- DYNAMIC_ADDRESS: by ENTDAA the target first sends its provisioned ID and its characteristics, as I3C orders them
(PRESUMED, log entry 97); SETDASA reads nothing. -/
def opDynAddr (s : State) (a : I3cAssign) : State :=
  if !s.pwr.i3c then s
  else match a with
    | .setdasa a => s.updPwr fun p => { p with dynAddr := some a.val }
    | .entdaa a => (s.updPwr fun p => { p with dynAddr := some a.val }).answer
        ((leBytes 6 s.provisionedId).reverse ++ [Config.i3cChar 0, Config.i3cChar 1])

end Sys2Proof.Machine
end

