-- ==== Sys2Proof/Machine/Host.lean ====
section
/-!
DEFINITION. Sys2Proof/Machine/Host.lean: what the host does on PCI Express (R480–R491), the doorbell (R493), result slots
(R506–R508), the hub management reset (R522), mailboxes and crooks (R511–R521).
-/
namespace Sys2Proof.Machine

def State.updHost (s : State) (g : HostIf → HostIf) : State := { s with host := g s.host }
def State.hostRegs (s : State) (g : HostRegs → HostRegs) : State :=
  s.updHost fun h => { h with regs := g h.regs }

/-! ### BAR0 (R485–R487) -/

/-- What a BAR0 offset names. -/
inductive Bar0 where
  | hub (off : Nat)
  | cmd (word : Nat)
  | res (word : Nat)
  | msix (off : Nat)
  | pba
  | die (d off : Nat)
  | fold (f off : Nat)
  | nowhere
  deriving DecidableEq, Repr

def bar0Place (o : Nat) : Bar0 :=
  if o < 0x1000000 then .hub o
  else if o < 0x1000800 then .cmd ((o - 0x1000000) / 8)
  else if 0x1010000 ≤ o ∧ o < 0x1014000 then .res ((o - 0x1010000) / 8)
  else if 0x1020000 ≤ o ∧ o < 0x1020400 then .msix (o - 0x1020000)
  else if 0x1021000 ≤ o ∧ o < 0x1021008 then .pba
  else if 0x1100000 ≤ o ∧ o < 0x1100000 + 20 * 0x10000 then .die ((o - 0x1100000) / 0x10000) ((o - 0x1100000) % 0x10000)
  else if 0x2000000 ≤ o ∧ o < 0x2000000 + 336 * 0x10000 then
    .fold ((o - 0x2000000) / 0x10000) ((o - 0x2000000) % 0x10000)
  else .nowhere

/-- Send the messages of vectors that are pending and no longer masked (R510). -/
def State.unmask (s : State) : State :=
  (List.range 64).foldl (fun s v =>
    if bit s.host.pba v && !bit (s.host.msix (2 * v + 1)) 32 then
      s.updHost fun h => { h with pba := setFld h.pba v 1 0, msi := h.msi ++ [v] }
    else s) s

/-- Write bytes of the MSI-X table (R487). -/
def State.msixWrite (s : State) (off len : Nat) (v : W64) : State :=
  (s.updHost fun h => { h with
    msixTab := SMap.upd (msixReset (off / 8)) h.msixTab (off / 8) fun w => setFld w (8 * (off % 8)) (8 * len) v.toNat }).unmask

/-- NARROW_ACCESS: a 32-bit access to BAR0. To register space it is counted and recorded at any time (R4), and refused
besides where R41 forbids the fold (R486); the MSI-X table and the PBA take it (R487) once OFFLINE has been read (R482). -/
def opNarrow (s : State) (off : Nat) (write : Bool) (v : W32) : State :=
  let ones := List.replicate 4 0xFF#8
  if !s.hubOn then s
  else
    let count := fun (s : State) =>
      let s := s.hostRegs fun r => { r with
        narrowCnt := bumpFld r.narrowCnt 0 32 1, narrowAddr := put 0 26 off ||| put 26 1 (b2n write) }
      if write then s else s.answer ones
    match bar0Place off with
    | .nowhere =>
      let s := s.hostRefused 1
      if write then s else s.answer ones
    | .msix o =>
      if !s.host.ready then if write then s else s.answer ones
      else if write then s.msixWrite (o / 4 * 4) 4 (BitVec.ofNat 64 v.toNat)
      else s.answer (leBytes 4 (fld (s.host.msix (o / 8)) (32 * (o / 4 % 2)) 32))
    | .pba =>
      if write then s
      else if !s.host.ready then s.answer ones
      else s.answer (leBytes 4 (fld s.host.pba (32 * (off / 4 % 2)) 32))
    | .fold f _ => count (if s.inService f then s else s.hostRefused 1)
    | _ => count s

/-! ### BAR2 (R488–R491, R271) -/

def State.bar2Addr (s : State) (off : Nat) : Nat := fld s.host.regs.bar2Base 21 19 * 0x200000 + off

/-- The status of a BAR2 access. -/
def State.bar2Status (s : State) (k : Acc) (off len : Nat) : Status :=
  let a := s.bar2Addr off
  match place a with
  | .inter _ => s.accStatus 1 k a len
  | _ => .bounds

/-- Count a refused BAR2 access (R490). -/
def State.bar2Refused (s : State) (st : Status) : State :=
  if st = .deniedSecure then s.hostRegs fun r => { r with boundsCnt := bumpFld r.boundsCnt 32 32 1 }
  else s.hostRefused 1

/-- BAR2_READ: it completes in every state but Off (R484). -/
def opBar2Read (s : State) (off len : Nat) : State :=
  if !s.hubOn || 2 ^ 32 < off + len then s
  else match s.bar2Status .hostRead off len with
    | .ok =>
      let a := s.bar2Addr off
      let s := s.corrected a len
      match s.ueIn a len with
      | some u =>
        ((s.logUE 1 u 0).updHost fun h => { h with aerErr := h.aerErr ||| 0x8000, aerHdr := some (off, len) }).answer []
      | none => s.answer (s.readBytes a len)
    | e => (s.bar2Refused e).answer (List.replicate len 0xFF#8)

/-- BAR2_WRITE. -/
def opBar2Write (s : State) (off : Nat) (bs : List Byte) : State :=
  if !s.hubUp || 2 ^ 32 < off + bs.length || bs.isEmpty then s
  else match s.bar2Status .hostWrite off bs.length with
    | .ok => s.write 1 (s.bar2Addr off) bs
    | e => s.bar2Refused e

/-! ### Configuration space and the link (R480–R483) -/

/-- POISONED_TLP: discarded, and reported as Poisoned TLP Received. -/
def opPoisoned (s : State) : State := if s.hubUp then s.updHost fun h => { h with aerErr := h.aerErr ||| 0x1000 } else s

/-- The capabilities of R480 in configuration space, by number: 0 PCI Express, 1 MSI-X, 2 AER, 3 DOE; their dwords. Where
each begins the manual does not say; the layout of each is PCI Express's own (PRESUMED, log entry 97). -/
def capLen : List Nat := [15, 3, 18, 6]

/-- The capability that a dword belongs to, and its place there. -/
def capOf (n : Nat) : Option (Nat × Nat) :=
  ((List.range 4).find? fun k => 16 ≤ n && Config.capAt k ≤ n && n < Config.capAt k + capLen.getD k 0).map fun k =>
    (k, n - Config.capAt k)

/-- The fields of the type 0 header that R480 and R481 give, (lowest bit, width, value), beside what the host last wrote:
IDs, class, a 64 MiB BAR0/1, a 4 GiB BAR2/3, no other BAR, no expansion ROM, no INTx. -/
def headerFields (n last : Nat) : List (Nat × Nat × Nat) :=
  match n with
  | 0 => [(0, 32, 0x96201D7C)]
  | 1 => [(1, 2, last / 2), (20, 1, 1)]
  | 2 => [(0, 32, 0x12000000)]
  | 3 => [(16, 8, 0)]
  | 4 => [(0, 26, 0x4), (26, 6, last / 2 ^ 26)]
  | 5 => [(0, 32, last)]
  | 6 => [(0, 32, 0xC)]
  | 7 => [(0, 32, last)]
  | 8 | 9 | 12 => [(0, 32, 0)]
  | 11 => [(0, 32, 0x00011D7C)]
  | 15 => [(8, 8, 0)]
  | _ => []

/-- The first dword of the DOE response that waits to be read. -/
def State.doeOut (s : State) : Nat := s.sec.doe.take 4 |>.foldr (fun b n => b.toNat + 256 * n) 0

/-- The BAR2 address that AER logged, in the host's address space. -/
def State.aerAddr (s : State) (off : Nat) : Nat := (SMap.get 0 s.host.cfgRegs 7).toNat * 2 ^ 32 + off

/-- The fields of the capabilities that R480, R483 and R491 give. -/
def State.capFields (s : State) (cap last : Nat) : Nat → List (Nat × Nat × Nat) := fun i =>
  match cap, i with
  | 0, 0 => [(0, 8, 0x10), (20, 4, 0), (31, 1, 1)]             -- endpoint; Flit Mode Supported
  | 0, 1 => [(0, 3, 2), (28, 1, 0)]                            -- 512 B payload; no Function Level Reset
  | 0, 3 => [(0, 4, 6), (4, 6, 4), (10, 2, 2), (15, 3, 4)]     -- 64 GT/s, ×4, ASPM L1, 8 µs to leave it
  | 0, 4 => [(0, 2, s.host.aspm)]
  | 0, 9 => [(12, 2, 0), (16, 2, 3)]                           -- no TPH; 10-bit tags
  | 0, 11 => [(1, 7, 0x3D)]                                    -- 2.5, 8, 16, 32 and 64 GT/s
  | 1, 0 => [(0, 8, 0x11), (16, 11, 63), (30, 2, last / 2 ^ 30)]
  | 1, 1 => [(0, 32, 0x1020000)]
  | 1, 2 => [(0, 32, 0x1021000)]
  | 2, 0 => [(0, 16, 0x0001)]
  | 2, 1 => [(0, 32, s.host.aerErr.toNat)]
  | 2, 7 => match s.host.aerHdr with
    | some (_, len) => [(0, 10, len / 4), (24, 8, 0x20)]
    | none => []
  | 2, 9 => match s.host.aerHdr with
    | some (off, _) => [(0, 32, s.aerAddr off / 2 ^ 32)]
    | none => []
  | 2, 10 => match s.host.aerHdr with
    | some (off, _) => [(2, 30, s.aerAddr off / 4)]
    | none => []
  | 3, 0 => [(0, 16, 0x002E)]
  | 3, 3 => [(0, 1, 0), (31, 1, b2n !s.sec.doe.isEmpty)]
  | 3, 5 => [(0, 32, s.doeOut)]
  | _, _ => []

/-- A dword of configuration space: the fields that the manual gives, over what it does not (`Config.cfgSpace`). -/
def State.cfgWord (s : State) (n : Nat) : W32 :=
  let last := SMap.get 0 s.host.cfgRegs n
  let fields := if n < 16 then headerFields n last.toNat else match capOf n with
    | some (cap, i) => s.capFields cap last.toNat i
    | none => []
  let w := fields.foldl (fun w x => setFld w x.1 x.2.1 x.2.2) (BitVec.ofNat 64 (Config.cfgSpace n last).toNat)
  BitVec.ofNat 32 w.toNat

/-- The DOE protocols: Discovery, and Amidom's objects of R598 under its vendor ID (R481): vendor, type. -/
def doeProtocols : List (Nat × Nat) := [(0x0001, 0x00), (0x1D7C, 0x01), (0x1D7C, 0x02), (0x1D7C, 0x03)]

/-- A DOE object: its vendor ID, type and length in dwords, then its payload. -/
def doeObject (vendor ty : Nat) (payload : List Byte) : List Byte :=
  leBytes 4 (vendor + 65536 * ty) ++ leBytes 4 (2 + (payload.length + 3) / 4) ++ payload

/-- DOE Discovery: the protocol at an index and the index after it, 0 behind the last. An object of Amidom's is the row that
names it. -/
def State.doeGo (s : State) : State :=
  let reply := match s.host.doeIn with
    | [w0, _, w2] =>
      let i := fld w2 0 8
      let p := doeProtocols.getD i (0xFFFF, 0)
      if fld w0 0 24 = 0x0001 then
        doeObject 0x0001 0 (leBytes 4 (p.1 + 65536 * p.2 + 2 ^ 24 * (if i + 1 < doeProtocols.length then i + 1 else 0)))
      else s.sec.doe
    | _ => s.sec.doe
  { s with host := { s.host with doeIn := [] }, sec := { s.sec with doe := reply } }

/-- A configuration write. -/
def State.cfgWrite (s : State) (n : Nat) (v : W32) : State :=
  let s := s.updHost fun h => { h with cfgRegs := SMap.set 0 h.cfgRegs n v }
  match capOf n with
  | some (0, 4) => s.updHost fun h => { h with aspm := fld v 0 2 }
  | some (2, 1) => s.updHost fun h => { h with aerErr := h.aerErr &&& ~~~v }
  | some (3, 2) =>
    if bit v 0 then { s with host := { s.host with doeIn := [] }, sec := { s.sec with doe := [] } }
    else if bit v 31 then s.doeGo else s
  | some (3, 4) => s.updHost fun h => { h with doeIn := h.doeIn ++ [v] }
  | some (3, 5) => { s with sec := { s.sec with doe := s.sec.doe.drop 4 } }
  | _ => s

/-- CONFIGURATION_REQUEST: a dword read or written once OFFLINE has been read; until then Configuration Request Retry
Status, with no data. -/
def opCfgReq (s : State) (r : CfgReq) : State :=
  if !s.hubOn || !s.host.ready || s.host.perst then s.answer []
  else match r with
    | .write n v => s.cfgWrite n v
    | .read n => s.answer (leBytes 4 (s.cfgWord n).toNat)

def opPerstAssert (s : State) : State :=
  let s := s.warmReset
  s.updHost fun h => { h with perst := true, l1 := false, ready := false, cfgRegs := [], aspm := 0, doeIn := [] }

def opPerstRelease (s : State) : State := s.updHost fun h => { h with perst := false }

/-- ASPM_L1_ENTRY: only while the host has enabled it (R483). -/
def opL1Entry (s : State) : State :=
  if s.hubUp && !s.host.perst && 2 ≤ s.host.aspm then s.updHost fun h => { h with l1 := true } else s

/-- PCIE_L1: the host takes the link out of L1 (R555). -/
def opL1Exit (s : State) : State :=
  if s.host.l1 then (s.updHost fun h => { h with l1 := false }).raiseWake 2 else s

/-! ### Doorbell and result slots -/

/-- HST_CMD_FREE bit k. -/
def State.cmdFree (s : State) (k : Nat) : Bool :=
  SMap.get 0 s.host.taken k = 0 || SMap.get 0 s.host.taken k ≤ s.now + 1

/-- The eight words of a command slot. -/
def State.slotWords (s : State) (k : Nat) : List W64 :=
  (List.range 8).map fun i => SMap.get 0 s.host.slots (8 * k + i)

/-- DOORBELL: how long the slot's bit stays 0, within 1 µs, is open (log entry 46). -/
def opDoorbell (s : State) (v : W64) : State :=
  if !s.host.ready then s
  else
    let k := fld v 0 5
    let ws := s.slotWords k
    if !s.cmdFree k then
      (s.hostRegs fun r => { r with cnt := bumpFld r.cnt 16 16 1 }).cmdErr .busy k (fld (wd ws 0) 32 32)
    else
      let (w, s) := s.fresh
      (s.updHost fun h => { h with taken := SMap.set 0 h.taken k (1 + s.now + w.toNat % 1001) }).accept ws k none

/-- RESULT_SLOT_READ: bytes of a result slot as of one instant (R506). -/
def opResultRead (s : State) (slot word len : Nat) : State :=
  if !s.host.ready then s.answer (List.replicate len 0xFF#8)
  else
    let w0 := s.resWord slot 0
    let s := if bit w0 49 && !bit w0 48 then s.hostRegs fun r => { r with cnt := bumpFld r.cnt 32 32 1 } else s
    s.answer (((wordsBytes ((List.range 8).map (s.resWord slot))).drop (8 * word)).take len)

/-- HST_RES_ACK (R507, R508). -/
def opResAck (s : State) (v : W64) : State :=
  if !s.host.ready then s
  else
    let k := fld v 0 8
    let w := s.resWord k 0
    if bit w 48 && fld w 0 32 = fld v 32 32 then s.setRes k 0 (put 0 32 (fld w 0 32) ||| put 32 16 (fld w 32 16))
    else s.hostRegs fun r => { r with cnt := bumpFld r.cnt 0 16 1 }

/-! ### Hub management reset (R522) -/

/-- What the reset does to a recovery, a running job, and the agents it restarts. -/
def State.hubmRestart (s : State) : State :=
  let s := s.host.queue.foldl (fun s c => s.complete c .busy []) s
  let s := { s with
    cfg := { s.cfg with staged := none, stageSt := 0, loading := none },
    sec := { s.sec with shepAt := none, shepGone := false },
    mbx := { s.mbx with
      crooks := SMap.remap {} s.mbx.crooks fun _ (c : Crook) => if c.owner = 2 then { c with owner := 0 } else c,
      boxes := SMap.remap {} s.mbx.boxes fun n (b : MBox) => if s.mboxRcv n = 2 then { b with full := false } else b } }
  match s.host.st with
  | .running =>
    let (st, s) := s.readTally.freeStatus
    s.raiseStop 2 st 0 true
  | .recovering =>
    let (st, s) := (s.readTally.modRes fun r => { r with stopped := false, resumeSent := false }).freeStatus
    (s.raiseStop 2 st 0 true).tryResume
  | _ => s

def opHubm (s : State) (v : W64) : State :=
  if !s.host.ready || fld v 48 16 ≠ 0x4855 || !bit v 0 then s else s.hubmRestart

/-! ### Mailboxes and crooks -/

/-- Whether a requester reaches a mailbox's registers (R531). -/
def mboxOpen (n who : Nat) : Bool := !(mboxSecure n) || secureAgent who

/-- A reply of the security core that waits goes into channel 67 once that is empty: its sender writes only then, so that
no word is lost (R517). -/
def State.secPost (s : State) : State :=
  match s.sec.replies with
  | w :: rest =>
    if (s.mbox 67).full then s else ({ s with sec := { s.sec with replies := rest } }.mboxWrite 67 3 w).1
  | [] => s

/-- A read of MBX_TAKE_n (R513, R531): it clears the word with FULL. The shepherd takes the partner's
digest from channel 70 (R658). -/
def opTake (s : State) (who n : Nat) : State :=
  if !mboxOpen n who || !s.mboxTaker n who then s.answerWord 0
  else
    let s' := ((s.updMbox n fun b => { b with full := false, word := 0 }).answerWord (s.mbox n).word).secPost
    if who = 2 && n = 70 then { s' with cfg := { s'.cfg with peerWord := some (s.mbox n).word } }.stagePeer else s'

/-- MBX_STS_n. -/
def MBox.sts (b : MBox) : W64 := put 0 1 (b2n b.full) ||| put 4 12 b.sender ||| put 16 16 b.lost ||| put 32 16 b.refused

/-- A read of MBX_STS_n. -/
def opMboxSts (s : State) (who n : Nat) : State :=
  if !mboxOpen n who then s.answerWord 0
  else (s.updMbox n fun b => { b with lost := 0, refused := 0 }).answerWord (s.mbox n).sts

def State.crook (s : State) (k : Nat) : Crook := SMap.get {} s.mbx.crooks k
def State.setCrook (s : State) (k : Nat) (c : Crook) : State :=
  { s with mbx := { s.mbx with crooks := SMap.set {} s.mbx.crooks k c } }
def crookOpen (k who : Nat) : Bool := 8 ≤ k || secureAgent who

/-- A read of MBX_CROOK_k acquires a free crook (R519). -/
def opCrookRead (s : State) (who k : Nat) : State :=
  let c := s.crook k
  if !crookOpen k who || !agentNo who then s.answerWord 0
  else if c.owner = 0 then (s.setCrook k { c with owner := who }).answerWord 0
  else s.answerWord (put 0 12 c.owner ||| put 48 16 c.ignored)

/-- A write to MBX_CROOK_k (R520): of 0 to its OWNER field (R532). -/
def opCrookWrite (s : State) (who k : Nat) (v : W64) : State :=
  let c := s.crook k
  if !crookOpen k who then s
  else if fld v 0 12 = 0 && (c.owner = who || who = 2 || who = 3) then s.setCrook k { c with owner := 0 }
  else s.setCrook k { c with ignored := satAdd 16 c.ignored 1 }

/-- A write to MBX_DATA_n (R512, R517). -/
def opMboxWrite (s : State) (who n : Nat) (v : W64) : State := (s.mboxWrite n who v).1

end Sys2Proof.Machine
end

