-- ==== Sys2Proof/Machine/JobImage.lean ====
section
/-!
DEFINITION. Sys2Proof/Machine/JobImage.lean: the job image (R650, R651) and the checks of LOAD in the order of R652
(R21–R24, R29, R256, R257, R331, R347, R380, R386, R417, R421, R439, R446, R447, R583, R601).
-/
namespace Sys2Proof.Machine

/-! ### Reading the image -/

/-- A 64-bit word of memory as LOAD reads it. -/
def State.imgWord (s : State) (a : Nat) : W64 := BitVec.ofNat 64 (leNat (s.moveBytes a 8))

/-- `n` words from an address. -/
def State.imgWords (s : State) (a n : Nat) : List W64 := (List.range n).map fun i => s.imgWord (a + 8 * i)

/-- Entry size of each section, in bytes (R651). -/
def secSize : List Nat := [16, 4, 64, 16, 64, 8, 16, 2, 8, 64, 64]

def State.dirOff (s : State) (a d : Nat) : Nat := fld (s.imgWord (a + 64 + 16 * d)) 0 48
def State.dirCount (s : State) (a d : Nat) : Nat := fld (s.imgWord (a + 72 + 16 * d)) 0 32

/-- The entries of a section of whole words. -/
def State.section_ (s : State) (a d : Nat) : List (List W64) :=
  (List.range (s.dirCount a d)).map fun i => s.imgWords (a + s.dirOff a d + secSize.getD d 8 * i) (secSize.getD d 8 / 8)

/-- The microbatch order: entries of 4 bytes. -/
def State.imgOrder (s : State) (a : Nat) : List Nat :=
  (List.range (s.dirCount a 1)).map fun i => leNat (s.moveBytes (a + s.dirOff a 1 + 4 * i) 4)

/-- The entries of the page map that are not zero. -/
def State.imgPages (s : State) (a : Nat) : SMap Nat :=
  (List.range 491520).filterMap fun q =>
    let e := leNat (s.moveBytes (a + s.dirOff a 7 + 2 * q) 2)
    if e = 0 then none else some (q, e)

/-- The ranks of a group entry. -/
def State.imgRanks (s : State) (a : Nat) (g : W64) : List Nat :=
  (List.range (fld g 0 9)).map fun i => leNat (s.moveBytes (a + fld g 16 48 + 2 * i) 2)

/-- The descriptors a plan names: GRAD, SUM, EF, HIST; nothing for a reserved pointer. -/
def State.planBlocks (s : State) (p : List W64) : List (List W64) :=
  let at_ := fun (i : Nat) => s.blockWords (fld (wd p i) 0 48)
  [at_ 1, at_ 2, if planComp p = 0 then [] else at_ 3, if planMode p = 1 then [] else at_ 4]

/-- The job an image describes. -/
def State.parseJob (s : State) (a size : Nat) : Job :=
  let hdr := s.imgWords a 8
  let plans := s.section_ a 9
  let resil := (s.section_ a 10).headD []
  { hdr := hdr,
    branch := (s.section_ a 0).map fun e => wd e 0,
    order := s.imgOrder a,
    folds := s.section_ a 2,
    slivers := (s.section_ a 3).map fun e => (wd e 0, wd e 1),
    layers := s.section_ a 4,
    groups := (s.section_ a 5).map fun e => s.imgRanks a (wd e 0),
    ports := (s.section_ a 6).map fun e => (wd e 0, wd e 1),
    mbx := (s.section_ a 8).map fun e => wd e 0,
    plans := plans,
    planSub := plans.map s.planBlocks,
    resil := resil,
    prot := (List.range (fld (wd resil 4) 0 13)).map fun i => s.imgWords (fld (wd resil 3) 0 48 + 64 * i) 8,
    size := size }

/-! ### Step 2: the header and the directory -/

def hdrReserved (h : List W64) : Bool :=
  fld (wd h 0) 12 20 ≠ 0 || fld (wd h 3) 48 16 ≠ 0 || fld (wd h 4) 21 11 ≠ 0 || fld (wd h 5) 48 16 ≠ 0
  || fld (wd h 6) 0 21 ≠ 0 || fld (wd h 6) 59 5 ≠ 0 || fld (wd h 7) 48 16 ≠ 0

def State.dirReserved (s : State) (a : Nat) : Bool :=
  (List.range 16).any fun d =>
    let w0 := s.imgWord (a + 64 + 16 * d)
    let w1 := s.imgWord (a + 72 + 16 * d)
    fld w0 48 16 ≠ 0 || fld w1 32 32 ≠ 0 || (11 ≤ d && (w0 ≠ 0 || w1 ≠ 0))

/-- Bytes of the header and the directory. -/
def hdrEnd : Nat := 320

def State.hdrCheck (s : State) (a size : Nat) : Status :=
  let h := s.imgWords a 8
  (commonChecks h [0x88] (hdrReserved h || s.dirReserved a)).andThen fun _ =>
  (firstFail [
    (fld (wd h 5) 0 48 ≠ size || size < hdrEnd || wd h 1 = 0 || fld (wd h 4) 16 5 = 0 || 16 < fld (wd h 4) 16 5
      || (fld (wd h 7) 0 48 ≠ 0 && size < fld (wd h 7) 0 48 + 1280), .bounds),
    ((List.range 11).any fun d => size < s.dirOff a d + s.dirCount a d * secSize.getD d 8, .bounds)]).andThen fun _ =>
  firstFail [
    ((s.section_ a 5).any fun e => size < fld (wd e 0) 16 48 + 2 * fld (wd e 0) 0 9, .bounds),
    ((List.range 11).any fun d => s.dirOff a d % 64 ≠ 0, .align)]

/-! ### Step 3: the page map -/

/-- A reserve begins at this page; the reserved code of RESERVE gives none. -/
def reservePage (h : List W64) : Nat := if resReserve h = 0 || resReserve h = 3 then 491520 else reserveBase (resReserve h) / 0x200000

def jobPool (j : Job) : Nat × Nat := (fld (wd j.hdr 6) 21 19, fld (wd j.hdr 6) 40 19)

/-- Pages with fixed attributes (R257). -/
def jobFixed (j : Job) (q : Nat) : Bool :=
  ((jobPool j).1 ≤ q && q < (jobPool j).1 + (jobPool j).2) || (reservePage j.resil ≤ q && q < 491520)

/-- The page table of a job (R257, R653): fixed pages take V, S, R and W. -/
def jobPages (j : Job) (m : SMap Nat) : SMap Nat :=
  (List.range 491520).filterMap fun q =>
    let e := if jobFixed j q then pgFixed else SMap.get 0 m q
    if e = 0 then none else some (q, e)

def State.pageCheck (s : State) (a : Nat) (j : Job) (m : SMap Nat) : Status :=
  let (b, n) := jobPool j
  firstFail [
    (s.dirCount a 7 ≠ 491520, .bounds),
    (m.any fun x => 256 ≤ x.2, .reservedNonzero),
    ((List.range 491520).any fun q => jobFixed j q && SMap.get 0 m q &&& pgS = 0, .deniedSecure),
    (491520 < b + n || (List.range n).any fun i => SMap.get 0 m (b + i) &&& pgV = 0, .bounds)]

/-! ### Step 4: BRANCH and MB_ORDER -/

def orderBranch (e : Nat) : Nat := e % 64
def orderMb (e : Nat) : Nat := e / 65536 % 4096

def State.branchReserved (s : State) (a : Nat) : Bool :=
  ((s.section_ a 0).any fun e =>
    fld (wd e 0) 13 3 ≠ 0 || fld (wd e 0) 25 7 ≠ 0 || fld (wd e 0) 41 23 ≠ 0 || wd e 1 ≠ 0)
  || (s.imgOrder a).any fun e => e / 64 % 1024 ≠ 0 || e / 2 ^ 28 ≠ 0

def branchCheck (j : Job) (bad : Bool) : Status :=
  let nb := fld (wd j.hdr 4) 16 5
  let all := (List.range nb).flatMap fun b => (List.range (brMb (j.branch.getD b 0))).map fun m => b + 65536 * m
  firstFail [
    (bad, .reservedNonzero),
    (j.branch.length ≠ nb, .bounds),
    (j.branch.any fun w => brMb w = 0 || 4096 < brMb w || 256 < brGacc w || brNmbf w = 0 || 320 < brNmbf w, .bounds),
    (j.order.any fun e => nb ≤ orderBranch e, .bounds),
    (j.order.length ≠ all.length || all.any fun e => !(j.order.contains e), .bounds)]

/-! ### Step 5: PORT and GROUP -/

def portCheck (j : Job) (aux : Option Nat) (groupWords : List (List W64)) : Status :=
  let role := fun (w : W64 × W64) => fld w.1 0 3
  let roles := (j.ports.map role).filter (· ≠ 0)
  let share := fun (w : W64) (k : Nat) => fld w (14 * k) 14
  firstFail [
    (j.ports.any fun w => fld w.1 3 13 ≠ 0 || fld w.1 32 32 ≠ 0 || fld w.2 42 6 ≠ 0 || fld w.2 60 4 ≠ 0,
      .reservedNonzero),
    (j.ports.length ≠ 6, .bounds),
    (!roles.Nodup || roles.contains 6 || roles.contains 7
      || (match aux with
        | some p => role (j.ports.getD p (0, 0)) ≠ 0
        | none => false), .bounds),
    (j.ports.any fun w => share w.2 0 + share w.2 1 + share w.2 2 ≠ 16128
      || (List.range 3).any fun k => share w.2 k < 257 || fld w.2 (48 + 4 * k) 4 = 0, .bounds),
    (groupWords.any fun e => fld (wd e 0) 9 7 ≠ 0, .reservedNonzero),
    (j.groups.length = 0 || 64 < j.groups.length, .bounds),
    (j.groups.any fun g => g.length < 2 || 256 < g.length || !g.Nodup, .bounds)]

/-! ### Step 6: FOLD, SLIVER and LAYER -/

def layerReserved (j : Job) : Bool :=
  (j.folds.any fun e => fld (wd e 0) 51 13 ≠ 0 || fld (wd e 1) 38 26 ≠ 0
    || (List.range 6).any fun i => wd e (2 + i) ≠ 0)
  || (j.slivers.any fun w => fld w.2 12 4 ≠ 0 || fld w.2 22 10 ≠ 0 || fld w.2 60 4 ≠ 0)
  || j.layers.any fun e => fld (wd e 0) 6 10 ≠ 0 || fld (wd e 0) 38 10 ≠ 0 || fld (wd e 0) 57 7 ≠ 0
    || (List.range 2).any fun i => wd e (6 + i) ≠ 0

def slvTensor (w : W64 × W64) : Nat × Nat × Nat := (fld w.2 16 6, fld w.2 32 16, fld w.2 48 12)
def slvCol (w : W64 × W64) : Nat := fld w.1 0 32
def slvWidth (w : W64 × W64) : Nat := fld w.1 32 32

/-- Two slivers of one tensor share a column (R23); a sliver without columns shares none. -/
def slvClash (v w : W64 × W64) : Bool :=
  slvWidth v ≠ 0 && slvWidth w ≠ 0 && slvTensor v = slvTensor w &&
    slvCol v < slvCol w + slvWidth w && slvCol w < slvCol v + slvWidth v

/-- Some two elements of a list, in order, meet a test. -/
def anyPair (p : α → α → Bool) : List α → Bool
  | [] => false
  | x :: l => l.any (p x) || anyPair p l

/-- A column below a tensor's last sliver that no sliver holds: without overlaps, the widths fall short of the end. -/
def slvGap (l : List (W64 × W64)) (w : W64 × W64) : Bool :=
  let mine := l.filter fun v => slvTensor v = slvTensor w && slvWidth v ≠ 0
  (mine.foldl (fun n v => n + slvWidth v) 0) < mine.foldl (fun n v => max n (slvCol v + slvWidth v)) 0

def layerCheck (j : Job) (pages : SMap Nat) : Status :=
  let nb := j.branch.length
  let inLayer := fun (n : Nat) => j.layers.any fun e => (lyFolds e).contains n
  let ofBranch := fun (b : Nat) => (List.range 320).filter fun n =>
    j.layers.any fun e => lyBranch e = b && (lyFolds e).contains n
  firstFail [
    (layerReserved j, .reservedNonzero),
    (j.folds.length ≠ 320 || j.slivers.any (fun w => 320 ≤ fld w.2 0 12 || nb ≤ fld w.2 16 6), .bounds),
    (j.slivers.any fun w => slvCol w % 128 ≠ 0 || slvWidth w % 128 ≠ 0, .align),
    (anyPair slvClash j.slivers, .overlap),
    (j.slivers.any (slvGap j.slivers), .bounds),
    ((List.range 320).any fun n => 32 < (j.slivers.filter fun w => fld w.2 0 12 = n).length, .bounds),
    (j.folds.any fun e => 32 < fld (wd e 1) 32 6 || j.slivers.length < fld (wd e 1) 0 32 + fld (wd e 1) 32 6, .bounds),
    (j.folds.any fun e => 4 < fld (wd e 0) 48 3 || interTop ≤ fld (wd e 0) 0 48
      || SMap.get 0 pages (fld (wd e 0) 0 48 / 0x200000) &&& pgX = 0, .bounds),
    (j.layers.any fun e => nb ≤ lyBranch e || (lyFolds e).length < lyNupd e, .bounds),
    ((List.range 320).any fun n => !(inLayer n), .bounds),
    ((List.range nb).any fun b => (ofBranch b).length < brNmbf (j.branch.getD b 0), .bounds)]

/-! ### Step 7: MBX -/

/-- One MBX_CFG value. -/
def mbxCheck (w : W64) : Status :=
  firstFail [
    (fld w 13 3 ≠ 0 || fld w 22 42 ≠ 0, .reservedNonzero),
    (if bit w 12 then 320 ≤ fld w 0 12 else !(agentListed (fld w 0 12)), .bounds)]

/-! ### Step 8: PLAN (R380) -/

def planReserved (p : List W64) : Bool :=
  let c := planComp p
  fld (wd p 0) 20 12 ≠ 0 || ((List.range 4).any fun i => fld (wd p (1 + i)) 48 16 ≠ 0)
  || (c = 0 && wd p 3 ≠ 0) || (planMode p = 1 && wd p 4 ≠ 0)
  || fld (wd p 5) 6 2 ≠ 0 || fld (wd p 5) 12 4 ≠ 0 || fld (wd p 5) 25 7 ≠ 0 || fld (wd p 5) 41 7 ≠ 0
  || fld (wd p 5) 54 10 ≠ 0
  || ((c = 0 || c = 2) && planKsel p ≠ 0) || (planMode p = 1 && fld (wd p 5) 32 9 ≠ 0)
  || fld (wd p 6) 22 10 ≠ 0 || fld (wd p 7) 12 52 ≠ 0

/-- No stride larger than R94 requires, and none left out. -/
def TDesc.contiguous (t : TDesc) : Bool :=
  let l := t.lineBytes
  let need := fun (d : Nat) =>
    if d = 1 then ceilDiv (t.dim 0) 32 * l
    else if d = 2 then (if t.blocked then t.footprint else t.dim 1 * t.stride 1)
    else t.dim 2 * t.stride 2
  ((List.range 4).filter fun d => 0 < d && d < t.rank && !(t.blocked && d = 1)).all fun d =>
    t.stride d = need d || (t.stride d = 0 && t.dim d = 1)

def sameShape (a b : TDesc) : Bool :=
  (List.range 4).all (fun d => a.dim d = b.dim d) && a.layout = b.layout && a.lineAxis = b.lineAxis

/-- The peer rank that the image lists for a role. -/
def jobPeer (j : Job) (role : Nat) : Option Nat :=
  (j.ports.find? fun w => fld w.1 0 3 = role).map fun w => fld w.1 16 16

/-- The checks of R380 on plan n of the job installed in the state. -/
def State.planCheck (s : State) (n : Nat) : Status :=
  let p := s.planP n
  let comp := planComp p
  let pair := planMode p = 1
  let rs := planAlg p = 1
  let back := planNback p
  let rank := fld (s.jobWord 4) 0 16
  let ranks := s.planRanks n
  let g := ranks.length
  let me := s.planMe n
  let named := [0, 1] ++ (if comp = 0 then [] else [2]) ++ (if pair then [] else [3])
  let use_ : Nat → TensorUse := fun k =>
    { role := fun f => f.baseRole || (k = 1 && f.isPair), dest := 2 ≤ k, win := TDesc.whole }
  let td := fun (k : Nat) => s.planTensor n k
  let grad := td 0
  let sum := td 1
  let prot := fun (b : Nat) => s.prots.any fun e => ptBuf e 0 = b || (ptUpd e ≠ 2 && ptBuf e 1 = b)
  let jb := fun (role : Nat) => s.job.bind fun j => jobPeer j role
  (commonChecks p [0x50] (planReserved p)).andThen fun _ =>
  (firstFail [
    (2 ≤ planMode p || 2 ≤ planAlg p || (comp ≠ 0 && rs) || (bit (wd p 0) 19 && pair)
      || (0 < back && (!bit (wd p 0) 19 || rs)), .unsupported),
    (!ranks.contains rank || g < 2 || 256 < g - back || g - back < back
      || ((comp = 1 || comp = 3) && (planKsel p < 16 || 256 < planKsel p))
      || (!pair && (planEinit p < -192 || 128 < planEinit p))
      || planNready p = 0 || 320 < planNready p || 15 < planBranch p, .bounds)]).andThen fun _ =>
  ((named.map fun k => s.tensorStatus 3 (fld (wd p (1 + k)) 0 48) (use_ k)).find? (· ≠ .ok)).getD .ok |>.andThen fun _ =>
  (firstFail [
    (grad.fmt ≠ 0x01 || !(sum.fmt = 0x01 || sum.fmt = 0x20) || (comp ≠ 0 && (td 2).fmt ≠ 0x01)
      || (!pair && (td 3).fmt ≠ 0x11) || !(sameShape grad sum) || (comp ≠ 0 && !(sameShape grad (td 2)))
      || (!pair && ((td 3).rank ≠ 1 || (td 3).dim 0 ≠ s.planChunks n))
      || named.any (fun k => !(td k).contiguous), .unsupported),
    (grad.base % 16384 ≠ 0 || sum.base % (if sum.format.isPair then 32768 else 16384) ≠ 0
      || (comp ≠ 0 && (td 2).base % 16384 ≠ 0), .align),
    (named.any fun k => interTop < (td k).base + (td k).storage, .bounds),
    ((comp ≠ 0 && !(prot (td 2).base)) || (!pair && !(prot (td 3).base)), .bounds),
    (jb 4 ≠ some (ranks.getD ((me + 1) % g) 0) || jb 5 ≠ some (ranks.getD ((me + g - 1) % g) 0), .bounds)]).andThen fun _ =>
  if (List.range 20).any fun st => poolCap s.poolBase s.poolPages st < 2 * s.poolNeed n st then .bounds else .ok

/-! ### Step 9: RESIL (R417) -/

def resilReserved (h : List W64) : Bool :=
  let w := wd h 1
  fld (wd h 0) 16 16 ≠ 0 || fld w 13 3 ≠ 0 || fld w 18 6 ≠ 0 || fld w 30 2 ≠ 0 || fld w 36 4 ≠ 0 || fld w 46 18 ≠ 0
  || (resK h = 0 && (resP h ≠ 0 || resSgroup h ≠ 0))
  || fld (wd h 2) 56 8 ≠ 0 || fld (wd h 3) 48 16 ≠ 0 || fld (wd h 4) 13 51 ≠ 0
  || (List.range 3).any fun i => wd h (5 + i) ≠ 0

def protReserved (e : List W64) : Bool :=
  fld (wd e 0) 17 15 ≠ 0 || ((List.range 3).any fun i => fld (wd e (1 + i)) 48 16 ≠ 0)
  || (ptUpd e = 2 && wd e 2 ≠ 0) || fld (wd e 4) 6 10 ≠ 0 || fld (wd e 4) 32 8 ≠ 0 || fld (wd e 4) 48 16 ≠ 0
  || (List.range 3).any fun i => wd e (5 + i) ≠ 0

/-- The header; `a` and `size`: where the image lies. -/
def State.resilHdrCheck (s : State) (a size : Nat) : Status :=
  let h := s.resHdr
  let np := fld (wd h 4) 0 13
  let ptr := fld (wd h 3) 0 48
  let parent := resParent h
  let tree := (if parent ≤ 5 then [parent] else []) ++ resChildren h
  (commonChecks h [0x61] (resilReserved h)).andThen fun _ =>
  firstFail [
    (resReserve h = 3, .unsupported),
    (4096 < resK h || (resK h ≠ 0 && (resP h = 0 || 2 < resP h)) || np = 0 || 4096 < np
      || ptr < a || a + size < ptr + 64 * np
      || (5 < parent && parent ≠ 0xF)
      || tree.any (fun p =>
        let r := jobRole ((s.job.map (·.ports)).getD []) s.cfg.auxPort p
        r = 0 || r = 6), .bounds),
    (ptr % 64 ≠ 0, .align)]

/-- The buffers of an entry: address and size. -/
def ptBufs (e : List W64) : List (Nat × Nat) :=
  (ptBuf e 0, ptSize e) :: if ptUpd e = 2 then [] else [(ptBuf e 1, ptSize e)]

def runsClash (x y : Nat × Nat) : Bool := x.1 < y.1 + y.2 && y.1 < x.1 + x.2

/-- Entry i. -/
def State.protCheck (s : State) (i : Nat) : Status :=
  let e := s.ent i
  let br := s.branchWord (ptBranch e)
  let nb := (s.job.map (·.branch.length)).getD 0
  let bad := fun (b : Nat × Nat) => interTop < b.1 + b.2 ||
    (List.range (ceilDiv (b.1 + b.2) 0x200000 - b.1 / 0x200000)).any fun k =>
      s.pageEntry (b.1 / 0x200000 + k) &&& (pgV + pgR + pgW) ≠ pgV + pgR + pgW
  let others := ((List.range s.prots.length).filter (· ≠ i)).flatMap fun k => ptBufs (s.ent k)
  (commonChecks e [0x60] (protReserved e)).andThen fun _ =>
  firstFail [
    (4 < ptClass e || ptUpd e = 3, .unsupported),
    (nb ≤ ptBranch e || (s.findLayer (ptBranch e) (ptLayer e)).isNone || (ptUpd e ≠ 2 && brGacc br = 0), .bounds),
    (((ptBufs e).any fun b => b.1 % 65536 ≠ 0) || ptSize e % 64 ≠ 0, .align),
    ((ptBufs e).any bad || (ptBufs e).any fun b => others.any (runsClash b), .bounds)]

/-- The stripe group (R439), as far as this device's image shows it. -/
def State.stripeBad (s : State) : Bool :=
  let h := s.resHdr
  let rank := fld (s.jobWord 4) 0 16
  let ranks := s.stripeRanks
  let g := ranks.length
  let me := s.stripeMe
  let peer := fun (role : Nat) => s.job.bind fun j => jobPeer j role
  resK h ≠ 0 && (!ranks.contains rank || g < 3 || 16 < g || g ≤ 1 + resP h
    || (me + 1 < g && peer 2 ≠ some (ranks.getD (me + 1) 0))
    || (0 < me && peer 1 ≠ some (ranks.getD (me - 1) 0))
    || (match peer 3 with
      | some r => resReserve h ≠ 0 && ranks.contains r
      | none => false))

/-- Entries a step can write (R447). -/
def tallyPerStep (j : Job) : Nat :=
  2 * (j.branch.foldl (fun n w => n + brMb w) 0) + j.layers.length + j.plans.length + 8

/-- Step 5 of R417, once. -/
def State.resilLast (s : State) : Status :=
  let h := s.resHdr
  let partner := resReserve h ≠ 0 && (s.job.bind fun j => jobPeer j 3).isSome
  let e := (s.job.map tallyPerStep).getD 0
  firstFail [
    (s.stripeBad, .bounds),
    (s.prots.any fun e => (mirrored (ptClass e) && !partner) || (striped (ptClass e) && resK h = 0), .bounds),
    (s.poolPages < 4, .bounds),
    (65536 < (max (resK h) 1 + 2) * e, .bounds)]

def State.resilCheck (s : State) (a size : Nat) : Status :=
  (s.resilHdrCheck a size).andThen fun _ =>
  (((List.range s.prots.length).map s.protCheck).find? (· ≠ .ok)).getD .ok |>.andThen fun _ => s.resilLast

/-! ### All of it -/

/-- The state as the job would leave it, on which the later checks are made. -/
def State.withJob (s : State) (j : Job) (pages : SMap Nat) : State :=
  { s with job := some j, cfg := { s.cfg with pages := some pages } }

/-- The checks of R652, with the job and its page table. `signed`: what checking the signature would find (R583). -/
def State.loadCheck (s : State) (a size : Nat) (signed : Bool) : Status × Job × SMap Nat :=
  let j := s.parseJob a size
  let m := s.imgPages a
  let pages := jobPages j m
  let t := s.withJob j pages
  (firstFail [
    (interTop < a + max size hdrEnd, .bounds),
    (setJobSign s.cfg.settings && (!signed || fld (wd j.hdr 7) 0 48 = 0), .signature)] |>.andThen fun _ =>
  (s.hdrCheck a size).andThen fun _ =>
  (s.pageCheck a j m).andThen fun _ =>
  (branchCheck j (s.branchReserved a)).andThen fun _ =>
  (portCheck j s.cfg.auxPort (s.section_ a 5)).andThen fun _ =>
  (layerCheck j pages).andThen fun _ =>
  (firstFail [(j.mbx.any fun w => mbxCheck w = .reservedNonzero, .reservedNonzero),
    (j.mbx.length ≠ 48 || j.mbx.any fun w => mbxCheck w ≠ .ok, .bounds)]).andThen fun _ =>
  (if 1024 < j.plans.length then Status.bounds else .ok).andThen fun _ =>
  (((List.range j.plans.length).map t.planCheck).find? (· ≠ .ok)).getD .ok |>.andThen fun _ =>
  if s.dirCount a 10 ≠ 1 then .bounds else t.resilCheck a size, j, pages)

end Sys2Proof.Machine
end

