-- ==== Sys2Proof/Machine/Boot.lean ====
section
/-!
DEFINITION. Sys2Proof/Machine/Boot.lean: the cold start and the end of a start-up (R540, R641, R642), the verification of a
configuration image (R580–R582, R644–R648), and flash writes (R661, R665).
-/
namespace Sys2Proof.Machine

def State.updSec (s : State) (g : Sec → Sec) : State := { s with sec := g s.sec }
def State.updCfg (s : State) (g : Cfg → Cfg) : State := { s with cfg := g s.cfg }

/-- COLD_START: the hub is released at timebase 0, with stack memory filled with zeros (R253, R606). -/
def opColdStart (s : State) : State :=
  let p := s.pwr
  if s.cfg.boot = .aon && p.okFrom.isSome && 36000 ≤ p.filtered && p.sysclk && p.state ≠ 4
      && (!p.trip || (p.tDie < 95 && p.tStack < 95)) then
    { s with
      now := 0, hubOn := true, mem := [], ue := [],
      pwr := { p with trip := false, devIdAon := true, okFrom := some 0, above := p.above.map fun _ => 0, sampleAt := 0,
                      telemAt := 0, hotAt := [], timerAt := 0 },
      cfg := { s.cfg with boot := .rom, bootAt := 0 } }
  else s

/-! ### The configuration image (R580, R645, R647, R648) -/

def imgSeq (f : FlashSlot) : Nat := fld (wd f.hdr 1) 0 32
def imgRoot (f : FlashSlot) : Nat := fld (wd f.hdr 1) 32 2
def imgLen (f : FlashSlot) : Nat := fld (wd f.hdr 2) 0 32
def cmpId (e : List W64) : Nat := fld (wd e 1) 0 8
def cmpSvn (e : List W64) : Nat := fld (wd e 1) 8 6
def cmpOff (e : List W64) : Nat := fld (wd e 2) 0 32
def cmpLen (e : List W64) : Nat := fld (wd e 2) 32 32
def cmpSig (e : List W64) : Nat := fld (wd e 3) 0 32

def allZero (w : List W64) (lo hi : Nat) : Bool := (List.range (hi + 1 - lo)).all fun i => wd w (lo + i) = 0

def imgHdrReserved (w : List W64) : Bool :=
  fld (wd w 0) 12 20 ≠ 0 || fld (wd w 1) 34 30 ≠ 0 || fld (wd w 2) 32 32 ≠ 0 || !(allZero w 4 7)
def cmpReserved (w : List W64) : Bool :=
  fld (wd w 0) 12 20 ≠ 0 || fld (wd w 1) 14 50 ≠ 0 || fld (wd w 3) 32 32 ≠ 0 || !(allZero w 4 7)
def setReserved (w : List W64) : Bool :=
  fld (wd w 0) 12 20 ≠ 0 || fld (wd w 1) 3 1 ≠ 0 || fld (wd w 1) 7 1 ≠ 0 || fld (wd w 1) 15 1 ≠ 0
    || fld (wd w 1) 48 16 ≠ 0 || fld (wd w 2) 12 52 ≠ 0 || !(allZero w 3 7)
    || (List.range 16).any fun i => mbxCheck (wd w (8 + i)) = .reservedNonzero

/-- A SETTINGS value outside the range of R648. -/
def setBad (w : List W64) : Bool :=
  let mv := fld (wd w 1) 16 16
  let cap := fld (wd w 2) 0 12
  5 < fld (wd w 1) 4 3 || (mv ≠ 0 && (mv < 38000 || 42000 < mv)) || (cap ≠ 0 && (cap < 2000 || 3800 < cap))
    || (List.range 16).any fun i => mbxCheck (wd w (8 + i)) ≠ .ok

def slotMax : Nat := 32 * 1048576

/-- What the header alone shows of step 1 (R645). -/
def imgHdrCheck (f : FlashSlot) : Status :=
  let w := f.hdr
  (commonChecks w [0x84] (imgHdrReserved w)).andThen fun _ =>
  firstFail [
    (fld (wd w 3) 0 32 % 64 ≠ 0 || fld (wd w 3) 32 32 % 64 ≠ 0, .align),
    (slotMax < imgLen f || imgLen f < 64 || imgLen f < fld (wd w 3) 0 32 + 1793
      || imgLen f < fld (wd w 3) 32 32 + 3137, .bounds)]

/-- Step 1 of R580, in the order of R647. -/
def imgStep1 (f : FlashSlot) : Status :=
  let w := f.hdr
  let ents := f.entries
  let blocks := ((ents.map fun e => commonChecks e [0x85] (cmpReserved e)) ++
    [commonChecks f.settings [0x86] (setReserved f.settings)])
  (commonChecks w [0x84] (imgHdrReserved w)).andThen fun _ =>
  ((blocks.find? (· ≠ .ok)).getD .ok).andThen fun _ =>
  firstFail [
    (fld (wd w 3) 0 32 % 64 ≠ 0 || fld (wd w 3) 32 32 % 64 ≠ 0
      || ents.any fun e => cmpOff e % 64 ≠ 0 || cmpSig e % 64 ≠ 0, .align),
    (imgHdrCheck f ≠ .ok || imgLen f < 320
      || (ents.any fun e => imgLen f < cmpOff e + cmpLen e || imgLen f < cmpSig e + 1280)
      || ents.length ≠ 4 || ([1, 2, 3, 4].any fun i => (ents.filter fun e => cmpId e = i).length ≠ 1)
      || (ents.any fun e => cmpId e = 4 && cmpLen e ≠ 192) || setBad f.settings, .bounds)]

/-- R580 on one slot. -/
def State.imgCheck (s : State) (f : FlashSlot) : Status :=
  let comps := ((f.entries.zip f.compsOk).filter fun x => cmpId x.1 ≠ 4).all (·.2)
  (imgStep1 f).andThen fun _ =>
  firstFail [
    (!f.rootOk || (s.sec.rootRev >>> imgRoot f) % 2 = 1, .signature),
    (!f.ownerOk, .signature),
    (!comps, .signature),
    (f.entries.any fun e => cmpSvn e < s.sec.svnFloor, .signature),
    (!f.settingOk, .signature)]

/-- The preferred slot: true for B (R645). -/
def preferB (a b : FlashSlot) : Bool :=
  let okA : Bool := imgHdrCheck a = .ok
  let okB : Bool := imgHdrCheck b = .ok
  okB && (!okA || imgSeq a < imgSeq b)

/-- CFG_BOOT (R663). -/
def bootWord (slotB fallback nothing : Bool) (aErr bErr : Status) (seq : Nat) : W64 :=
  put 0 1 (b2n slotB) ||| put 1 1 (b2n fallback) ||| put 2 1 (b2n nothing) ||| put 8 8 aErr.code ||| put 16 8 bErr.code
    ||| put 24 32 seq

/-- An image has passed: its components' copies, measurements and settings are kept (R581, R582). -/
def State.runImage (s : State) (f : FlashSlot) (isB : Bool) (reg : W64) : State :=
  let s := s.updSec fun x => { x with
    image := isB, svns := f.entries.map cmpSvn, permDbg := f.permDebug, meas := s.free }
  { s with free := s.free + 1,
           cfg := { s.cfg with boot := .released, bootReg := reg, settings := f.settings } }

/-- IMAGE_VERIFIED. -/
def opImage (s : State) (a b : FlashSlot) (flashOk : Bool) : State :=
  if s.cfg.boot ≠ .rom then s
  else
    let chk := fun (f : FlashSlot) => if flashOk then s.imgCheck f else Status.bounds
    let pb := flashOk && preferB a b
    let (first, second) := if pb then (b, a) else (a, b)
    match chk first with
    | .ok => s.runImage first pb (bootWord pb false false .ok .ok (imgSeq first))
    | e1 =>
      let s := s.updSec fun x => { x with bootErr := e1.code }
      match chk second with
      | .ok => s.runImage second (!pb)
          (bootWord (!pb) true false (if pb then .ok else e1) (if pb then e1 else .ok) (imgSeq second))
      | e2 =>
        let s := s.updSec fun x => { x with bootErr := e2.code }
        s.updCfg fun c => { c with
          boot := .noImage,
          bootReg := bootWord false true true (if pb then e2 else e1) (if pb then e1 else e2) 0 }

/-! ### The end of a start-up -/

/-- STATE reads OFFLINE: the device serves the host, and boundary scan takes the pins it waits for (R597). -/
def State.offlineNow (s : State) : State :=
  let s := { s with host := { s.host with ready := true } }.updSec fun x =>
    { x with pins := x.pins || x.pinsWait, pinsWait := false }
  s.raise 2

/-- The keys of R587 and R588. -/
def State.deriveKeys (s : State) : State :=
  s.updSec fun x => { x with idReady := x.level ≠ 2 && !x.opened, dbgKey := x.level = 2 || x.opened }

/-- STARTUP_COMPLETE; `revision` is what PMBUS_REVISION read (R548). -/
def opStartup (s : State) (revision : Nat) : State :=
  match s.cfg.boot with
  | .released =>
    let s := (s.updPwr fun p => { p with noAck := revision ≠ 0x44, stepAt := s.now }).deriveKeys.imageSettings
    (s.updCfg fun c => { c with boot := .up }).offlineNow
  | .warm =>
    let s := { s with now := max s.now (s.cfg.bootAt + 30000000) }.imageSettings
    (s.updCfg fun c => { c with boot := .up }).offlineNow
  | .noImage => if s.host.ready then s else s.deriveKeys.offlineNow
  | _ => s

/-! ### Flash (R661) -/

def State.flashStatus (s : State) (st : Status) : State :=
  s.updCfg fun c => { c with flash := setFld c.flash 56 8 st.code }

/-- A write to CFG_FLASH. GO while a write is in progress has no effect (log entry 53). -/
def State.writeFlash (s : State) (v : W64) : State :=
  let slot := fld v 0 1
  let src := fld v 21 19
  let len := fld v 40 10
  let s := s.updCfg fun c => { c with
    flash := put 0 1 slot ||| put 21 19 src ||| put 40 10 len ||| put 56 8 (fld c.flash 56 8) }
  if !bit v 1 || s.cfg.flashJob.isSome then s
  else
    let st := firstFail [
      (!(s.cfg.boot = .noImage || s.host.st = .offline), .notInState),
      ((s.cfg.boot ≠ .noImage && slot = b2n s.sec.image) || len = 0 || 512 < len
        || interTop < src * 0x200000 + len * 65536, .bounds),
      (2 ≤ s.pwr.level, .supplyLow)]
    if st ≠ .ok then s.flashStatus st
    else s.updCfg fun c => { c with flashJob := some { slot := slot, src := src, len := len } }

/-- FLASH_WRITE_DONE: what the read-back found, unless the supply cut the write short. -/
def opFlashDone (s : State) (compareOk : Bool) : State :=
  match s.cfg.flashJob with
  | none => s
  | some j =>
    let s := s.corrected (j.src * 0x200000) (j.len * 65536)
    let s := match s.ueIn (j.src * 0x200000) (j.len * 65536) with
      | some u => s.consumeUE 3 u
      | none => s
    let st : Status := if j.cut then .supplyLow else if compareOk then .ok else .uncorrectable
    ((s.updCfg fun c => { c with flashJob := none }).flashStatus st).nvEnd st

end Sys2Proof.Machine
end

