-- ==== Sys2Proof/Machine/Views.lean ====
section
/-!
DEFINITION. Sys2Proof/Machine/Views.lean: registers whose fields are views of other state: what each reads as.
-/
namespace Sys2Proof.Machine

/-- Codes of FLD_THR_STS (R240). -/
def ThSt.code : ThSt → Nat
  | .idle => 0
  | .ready => 1
  | .running => 2
  | .waitMem => 3
  | .waitEvent => 4
  | .waitIssue => 5
  | .waitFence => 6
  | .faulted => 7

/-- Codes of MXA_HALF (R142). -/
def HalfSt.code : HalfSt → Nat
  | .empty => 0
  | .filling => 1
  | .full => 2
  | .reading => 3

/-- Codes of DBG_TRC_STS (R638). -/
def TrcSt.code : TrcSt → Nat
  | .off => 0
  | .running => 1
  | .triggered => 2
  | .frozen => 3
  | .flushing => 4

/-- The OR of words. -/
def orWords (l : List W64) : W64 := l.foldl (fun (a : W64) b => a ||| b) 0

/-! ### Folds -/

/-- FLD_THR_STS (R240). -/
def State.thrSts (s : State) (f c : Nat) : W64 :=
  orWords ((List.range 8).map fun t => put (3 * t) 3 (s.thread f c t).st.code) ||| put 24 3 (s.core f c).last

/-- MXA_HALF (R142). -/
def State.mxaHalf (s : State) (f : Nat) : W64 :=
  orWords ((List.range 4).map fun i => put (2 * i) 2 (SMap.get ({} : Half) (s.fold f).halves i).st.code)
    ||| put 8 5 (s.fold f).matQ.length

/-- VEC_STS (R179). -/
def State.vecSts (s : State) (f c : Nat) : W64 :=
  put 0 4 (s.core f c).chainQ.length ||| put 4 2 (s.core f c).inflight.length

/-- VEC_CB_CTL (R181). -/
def State.cbCtl (s : State) (f c : Nat) : W64 :=
  setFld (s.core f c).regs.cbCtl 26 1 (b2n (s.core f c).cbLoad.isSome)

/-- FLD_EVT (R244): threads and gated heads count as waiters. -/
def State.evtReg (s : State) (f n : Nat) : W64 :=
  let e := s.slot f n
  let w := e.waiters.filter fun x => match x with
    | .cred _ => false
    | _ => true
  put 0 16 e.count ||| put 16 1 (b2n e.ovf) ||| put 24 8 w.length

/-- A bit for each stream context that meets a test. -/
def State.ctxBits (s : State) (f : Nat) (p : Ctx → Bool) : Nat :=
  (List.range 16).foldl (fun n k => if (s.ctx f k).any p then n + 2 ^ k else n) 0

/-- STR_STS (R324). -/
def State.strSts (s : State) (f : Nat) : W64 :=
  put 0 6 (s.fold f).strQ.length ||| put 8 5 ((List.range 16).filter fun k => (s.ctx f k).isSome).length
    ||| put 16 16 (s.ctxBits f fun c => hdrType c.d.words = 0x30 && c.needsCredit)
    ||| put 32 16 (s.ctxBits f fun c => c.held)

/-- FLD_MEM_CFG (R277). -/
def State.memCfg (s : State) (f : Nat) : W64 := put 0 3 (s.fold f).fcSize ||| put 16 16 (s.fold f).epoch

/-! ### Base dies and ports -/

/-- STK_REPAIR (R281): MIN_FREE over the banks that hold a repair; 16 where none does. -/
def Die.repairReg (v : Die) : W64 :=
  put 0 16 v.soft ||| put 16 16 v.hard ||| put 32 5 (v.used.foldl (fun n x => min n (16 - x.2)) 16)
    ||| put 37 1 (b2n v.exhaust)

/-- STK_WATCH (R329). -/
def Die.watchReg (v : Die) : W64 :=
  put 0 10 v.watch.length ||| put 16 10 (max v.wHigh v.watch.length) ||| put 32 16 v.wRefused

/-- DRV_STS (R365). -/
def Port.sts (x : Port) : W64 :=
  put 0 3 x.st.code ||| put 3 2 x.width ||| put 5 3 x.role ||| put 8 3 (hsRole x.peer) ||| put 16 8 x.ver
    ||| put 24 8 x.regs.err ||| put 32 16 (if x.peer.isEmpty then 0xFFFF else hsRank x.peer)

/-! ### Collective and resilience engines -/

/-- COL_STS (R410). -/
def State.colSts (s : State) : W64 :=
  put 0 12 (s.col.insts.filter fun i => !i.released).length ||| put 12 1 (b2n (s.col.insts.any fun i => i.waiting))
    ||| put 16 8 s.col.lastErr

/-- RES_STS.PHASE (R473; log entry 52). -/
def State.resPhase (s : State) : Nat :=
  match s.host.st with
  | .offline | .configured | .loaded => 0
  | .running => if s.pwr.stopAt.isSome then 2 else 1
  | .faulted => 2
  | .paused | .recovering =>
    if s.res.rebuild.isSome then 3
    else if s.res.filling then 4
    else if s.res.resumeAt.isSome then 6 else 5

/-- RES_STS (R473). -/
def State.resSts (s : State) : W64 :=
  put 0 3 s.resPhase ||| s.res.regs.stsBits ||| put 6 1 (b2n s.partnerUp)
    ||| put 8 1 (b2n (s.job.isSome && s.tallyWaits)) ||| put 16 4 s.res.rebuildQ.length ||| put 32 16 s.res.regs.orphans

/-- RES_SPARE (R476). -/
def State.resSpare (s : State) : W64 :=
  put 0 4 (s.res.spares.filter (foldDie · = 0)).length ||| put 4 4 (s.res.spares.filter (foldDie · = 1)).length
    ||| put 8 9 s.res.failedF.length

/-! ### Host, power, security, configuration -/

/-- The transition command that is pending (R497). -/
def State.pendOp (s : State) : Option Nat := (s.host.queue.find? fun c => transitionOps.contains c.op).map Cmd.op

/-- Result slots that are BUSY and not READY. -/
def State.openSlots (s : State) : Nat :=
  ((List.range 256).filter fun k => bit (s.resWord k 0) 49 && !bit (s.resWord k 0) 48).length

/-- HST_STS (R523). -/
def State.hstSts (s : State) : W64 :=
  put 0 3 s.stsState ||| put 3 1 (b2n s.pendOp.isSome) ||| put 8 8 (s.pendOp.getD 0) ||| put 16 9 s.openSlots

/-- HST_CMD_FREE (R525). -/
def State.cmdFreeReg (s : State) : W64 := orWords ((List.range 32).map fun k => put k 1 (b2n (s.cmdFree k)))

/-- MBX_FULL (R532). -/
def State.mbxFull (s : State) (secure : Bool) : W64 :=
  orWords ((List.range 64).map fun n => put n 1 (b2n ((s.mbox n).full && (secure || 16 ≤ n))))

/-- PWR_STS (R564). -/
def State.pwrSts (s : State) : W64 :=
  let p := s.pwr
  let up := (p.ann.any fun a => a.kind = 0) || (p.retryAt.any fun r => r.1 = 0)
  put 0 3 s.powerCode ||| put 3 2 p.level ||| put 5 1 (b2n s.boosted) ||| put 6 1 (b2n (0 < p.capped))
    ||| put 7 1 (b2n (!p.therm.isEmpty)) ||| put 8 1 (b2n up) ||| put 9 1 (b2n p.held) ||| put 10 1 (b2n p.noAck)
    ||| put 16 9 (s.folds.filter fun x => x.2.island.graze).length

/-- PWR_SUPPLY (R565). -/
def State.pwrSupply (s : State) : W64 :=
  put 0 16 s.pwr.filtered ||| put 16 16 s.pwr.vinMin ||| put 32 12 s.pwr.pIn

/-- PWR_THERM (R567). -/
def State.pwrTherm (s : State) : W64 :=
  put 0 8 s.pwr.tDie ||| put 8 8 s.pwr.tStack ||| put 16 8 s.pwr.tDieMax ||| put 24 8 s.pwr.tStackMax

/-- PWR_REG (R569). -/
def State.pwrReg (s : State) : W64 := setFld s.pwr.reg 0 7 (setRegAddr s.cfg.settings)

/-- SEC_STS (R604). -/
def State.secSts (s : State) : W64 :=
  let x := s.sec
  put 0 2 x.level ||| put 2 2 x.debug ||| put 4 1 (b2n x.opened) ||| put 5 1 (b2n x.idReady) ||| put 6 1 (b2n x.image)
    ||| put 8 8 x.bootErr ||| put 16 6 x.svnFloor ||| put 22 4 x.rootRev

/-- CFG_ARCH_ID (R662). -/
def archId : W64 := put 0 8 1 ||| put 8 8 0 ||| put 16 4 1 ||| put 20 8 1

/-- CFG_STAGE (R664). -/
def State.cfgStage (s : State) : W64 :=
  let g := s.cfg.staged
  put 0 3 s.cfg.stageSt ||| put 3 5 ((g.map (·.holds)).getD 0) ||| put 8 48 ((g.map (·.target)).getD 0)
    ||| put 56 8 s.cfg.stageLast

/-- CFG_FLASH (R665). -/
def State.cfgFlash (s : State) : W64 := setFld s.cfg.flash 2 1 (b2n s.cfg.flashJob.isSome)

/-- DBG_TRC_STS (R638). -/
def Trc.sts (t : Trc) : W64 := put 0 3 t.st.code ||| put 8 8 t.err ||| put 16 32 t.drops
/-- DBG_TRC_POS (R638). -/
def Trc.pos (t : Trc) : W64 := put 0 32 t.wseg ||| put 32 32 t.tseg

/-- DBG_HC_STS (R639). -/
def State.hcSts (s : State) : W64 :=
  put 0 2 (b2n s.dbg.hcReq.isSome) ||| put 8 8 s.dbg.hcErr ||| put 16 16 s.dbg.hcCount

end Sys2Proof.Machine
end

