-- ==== Sys2Proof/Machine/Debug.lean ====
section
/-!
DEFINITION. Sys2Proof/Machine/Debug.lean: control of the trace (R615, R617, R624–R626, R629), the fold counters as
registers (R627, R628, R640), and the headcount (R630–R634).
-/
namespace Sys2Proof.Machine

/-! ### DBG_TRC_CTL and DBG_TRC_TRIG -/

/-- The RW fields of DBG_TRC_CTL (R636). -/
def trcCtlMask : W64 :=
  put 0 3 7 ||| put 5 11 0x7FF ||| put 16 4 15 ||| put 32 12 0xFFF ||| put 44 12 0xFFF

/-- EN goes to 1: the checks of R617, and a new trace from the region's first segment (log entry 51). -/
def State.traceOn (s : State) (d : Nat) : State :=
  match s.traceCheck d (s.trc d).ctl with
  | .ok =>
    let s := s.updTrc d fun t => { t with
      ctl := setFld t.ctl 0 1 1, st := .running, thaw := .off, wseg := 0, tseg := 0, trigSeg := 0, buf := [], post := 0,
      enAt := s.now, samples := 0, pmcHeld := false, seen := 0, owed := [] }
    s.syncAll d
  | e => s.updTrc d fun t => { t with err := e.code }

def State.traceOff (s : State) (d : Nat) : State :=
  s.updTrc d fun t => { t with ctl := setFld t.ctl 0 1 0, st := .off, buf := [], post := 0, pmcHeld := false }

/-- FLUSH (R626): only while RUNNING. -/
def State.traceFlush (s : State) (d : Nat) : State :=
  s.updTrc d fun t => if t.st = .running then { t with st := .flushing, thaw := .running } else t

/-- REARM (R626, R627): only while FROZEN. -/
def State.traceRearm (s : State) (d : Nat) : State :=
  if (s.trc d).st = .frozen then
    let s := if (s.trc d).pmcHeld then s.pmcResume d else s
    s.updTrc d fun t => { t with st := .running, pmcHeld := false }
  else s

/-- A write to DBG_TRC_CTL_d. While EN = 1 a write that changes another field is ignored with BUSY (R617). -/
def State.writeTrcCtl (s : State) (d : Nat) (v : W64) : State :=
  let t := s.trc d
  let on := bit t.ctl 0
  let w := v &&& trcCtlMask
  if on && setFld w 0 1 0 ≠ setFld t.ctl 0 1 0 then s.updTrc d fun t => { t with err := Status.busy.code }
  else
    let s := s.updTrc d fun t => { t with ctl := setFld w 0 1 (b2n on) }
    let s := if on && !bit v 0 then s.traceOff d else if !on && bit v 0 then s.traceOn d else s
    let s := if bit v 3 then s.traceFlush d else s
    if bit v 4 then s.traceRearm d else s

/-- A write to DBG_TRC_SPILL_d: ignored with BUSY while EN = 1 if it changes a field. -/
def State.writeTrcSpill (s : State) (d : Nat) (v : W64) : State :=
  let w := put 21 33 (fld v 21 33)
  s.updTrc d fun t =>
    if bit t.ctl 0 then (if w = t.spill then t else { t with err := Status.busy.code }) else { t with spill := w }

/-- A write to DBG_TRC_TRIG_d: TRIG_NOW of the host raises source 5 (R624). -/
def State.writeTrcTrig (s : State) (who d : Nat) (v : W64) : State :=
  let s := s.updTrc d fun t => { t with trig := put 0 20 (fld v 0 20) ||| put 32 32 (fld v 32 32) }
  if bit v 20 && who = 1 then s.fire d 5 0x3FF else s

/-! ### Freeze and flush -/

/-- TRACE_FREEZE: POST records have followed the trigger. -/
def opFreeze (s : State) (d : Nat) : State :=
  let t := s.trc d
  if t.phase = .triggered && t.post = 0 then
    let s := State.spillAll t.buf.length s d
    let s := s.updTrc d fun t => { t with st := .frozen, tseg := t.trigSeg }
    if (s.trc (1 - d)).st = .frozen then s.raise 5 else s
  else s

/-- TRACE_FLUSH_DONE. -/
def opFlushDone (s : State) (d : Nat) : State :=
  let t := s.trc d
  if t.st = .flushing then (State.spillAll t.buf.length s d).updTrc d fun t => { t with st := t.thaw } else s

/-! ### SAMPLE and SYNC records -/

/-- The tick of a die's next samples; none: it takes none (log entry 51). -/
def Trc.sampleAt (t : Trc) : Option Nat :=
  if bit t.ctl 0 && bit t.ctl 10 then some (t.enAt + (t.samples + 1) * 2 ^ fld t.ctl 11 5) else none

/-- The data address of a thread in WAIT_MEM. -/
def Wait.addr : Wait → Nat
  | .load a .. => a
  | .store a .. => a
  | .amo a .. => a
  | .regRead a _ => a
  | .regWrite a _ => a
  | _ => 0

/-- Every enabled core of a die writes one SAMPLE record, for its threads in turn. -/
def State.sampleDie (s : State) (d : Nat) : State :=
  let th := (s.trc d).samples % 8
  let folds := (List.range 336).filter fun f => foldDie f = d && (s.fold f).clocked
  let s := folds.foldl (fun s f => (List.range 8).foldl (fun s c =>
    let t := s.thread f c th
    s.coreRec f c th 10 0x30 [put 0 48 t.pc.toNat ||| put 48 3 t.st.code,
      if t.st = .waitMem then put 0 48 t.wait.addr else 0]) s) s
  s.updTrc d fun t => { t with samples := t.samples + 1 }

/-- TRACE_SAMPLE: the samples that are due first. -/
def opTrcSample (s : State) : State :=
  let due := [0, 1].filterMap fun d => ((s.trc d).sampleAt).map fun t => (t, d)
  match due.map (·.1) |>.min? with
  | none => s
  | some t =>
    let s := { s with now := max s.now t }
    due.foldl (fun s x => if x.1 = t then s.sampleDie x.2 else s) s

/-- TRACE_SYNC: timebase bits 63:38 change. -/
def opSync (s : State) : State :=
  let on := [0, 1].filter fun d => (s.trc d).accepts
  match (on.map fun d => (s.trc d).syncAt).min? with
  | none => s
  | some e =>
    let s := { s with now := max s.now ((e + 1) * 2 ^ 38) }
    on.foldl (fun s d => if (s.trc d).syncAt < s.now / 2 ^ 38 then s.syncAll d else s) s

/-! ### Fold counters as registers (R640) -/

/-- FLD_PMC_SEL: a reserved code reads back as 0x00. Timed counters keep what they have counted. -/
def opPmcSel (s : State) (f : Nat) (v : W64) : State :=
  let sel := (List.range 8).foldl (fun (w : W64) i =>
    let c := fld v (8 * i) 8
    if pmcCodes.contains c then w ||| put (8 * i) 8 c else w) 0
  let old := (List.range 8).map (s.pmcRead f)
  s.foldRegs f fun r => { r with
    pmcSel := sel,
    pmc := (List.range 8).foldl (fun m i => SMap.set 0 m i (wd old i)) r.pmc,
    pmcAt := (List.range 8).foldl (fun m i => SMap.set 0 m i s.now) r.pmcAt }

/-- FLD_PMC_n: the count is set, OVF clears where 1 is written, and the threshold is armed again. -/
def opPmcWrite (s : State) (f i : Nat) (v : W64) : State :=
  let ovf := bit (s.pmcRead f i) 48 && !bit v 48
  s.foldRegs f fun r => { r with
    pmc := SMap.set 0 r.pmc i (put 0 48 (fld v 0 48) ||| put 48 1 (b2n ovf)),
    pmcAt := SMap.set 0 r.pmcAt i s.now,
    pmcFired := if (r.pmcFired >>> i) % 2 = 1 then r.pmcFired - 2 ^ i else r.pmcFired }

/-! ### Headcount (R630–R634) -/

/-- A write to DBG_HC_CTL. -/
def State.writeHcCtl (s : State) (v : W64) : State :=
  let s := { s with dbg := { s.dbg with hcCtl := put 1 1 (b2n (bit v 1)) ||| put 8 16 (fld v 8 16) } }
  if bit v 0 then s.hcRequest 0 else s

/-- HEADCOUNT_WATCHDOG: WDOG periods without a device commit; the next ones count from here (log entry 51). -/
def opWatchdog (s : State) : State :=
  let n := fld s.dbg.hcCtl 8 16
  if n = 0 || !s.running then s
  else
    let s := { s with now := max s.now (s.dbg.wdogAt + n * 1048576) }
    let s := { s with dbg := { s.dbg with wdogAt := s.now } }
    (s.hcRequest 2).fireHub 6

/-- The PERMIT slots of the layers that a physical fold's logical fold belongs to (R419, R651). -/
def State.permitSlot (s : State) (f g : Nat) : Bool :=
  match s.job, s.logicalOf f with
  | some j, some n => j.layers.any fun w => fld (wd w 0) 32 6 = g && bit (wd w (1 + n / 64)) (n % 64)
  | _, _ => false

/-- The wait code of a head that waits for its gate slot. -/
def State.gateCode (s : State) (f g : Nat) : Nat := if s.permitSlot f g then 10 else 3

/-- The wait code of the head of the matmul queue (R634). -/
def State.mxaWait (s : State) (f : Nat) : Nat :=
  match (s.fold f).matQ with
  | [] => if (s.fold f).matRun.isEmpty then 0 else 1
  | e :: _ =>
    let d := e.words
    if !((mmArrays d).all fun a => halfFree (s.half f a.1 (mmHalf d))) then 2
    else if mmSpec d && (s.fold f).regs.specEn
      && (s.fold f).matRun.any (fun r => r.useSpec && mmSlot r.d.words = mmSlot d) then 11
    else match e.gate with
      | some g => if s.gateReady f g .gateMxa then 1 else s.gateCode f g
      | none => 1

/-- Of the head of a core's chain queue. -/
def State.vecWait (s : State) (f c : Nat) : Nat :=
  let x := s.core f c
  match x.chainQ with
  | [] => if x.inflight.isEmpty then 0 else 1
  | e :: _ =>
    let d := e.words
    let h := s.half f (chArr d) (chHalf d)
    if chSrcAcc d && !(h.st = .full || h.st = .reading) then 2
    else if usesPrev (stagesOf (e.subs.getD 0 []) (chNstg d)) && !x.inflight.isEmpty then 9
    else match e.gate with
      | some g => if s.gateReady f g (.gateVec c) then 1 else s.gateCode f g
      | none => 1

/-- Of the head of the stream queue. -/
def State.strWait (s : State) (f : Nat) : Nat :=
  match (s.fold f).strQ with
  | [] => if (s.fold f).ctxs.any fun x => x.2.isSome then 1 else 0
  | e :: _ =>
    if (s.freeCtx f).isNone then 4
    else if !(State.isEarly e) && e.gate.any fun g => !s.gateReady f g .gateStr then s.gateCode f (e.gate.getD 0)
    else
      let skip := if hdrType e.words = 0x30 then s.skipSet f e.words else 0
      if skip ≠ 0 && (16 ≤ (s.fold f).demand.length || (s.fold f).demand.any fun q => q.slot = stSlot e.words)
      then 6 else 1

/-- Of a stream context. -/
def State.ctxWait (s : State) (f k : Nat) : Nat :=
  match s.ctx f k with
  | none => 0
  | some c =>
    if !c.gateOpen then s.gateCode f (c.d.gate.getD 0)
    else if hdrType c.d.words = 0x30 && c.needsCredit then 5
    else if hdrType c.d.words = 0x30 && stKind c.d.words = kSEND && c.acked < c.released then 8 else 1

def queueWords (q : List Issued) (code : Nat) : List Nat :=
  match q with
  | e :: _ => [e.ticket, e.addr, code]
  | [] => [0, 0, code]

/-- What the hub section holds. -/
def State.hcHub (s : State) : List Nat :=
  let waits := fun (i : Inst) => if i.waiting then 7 else 1
  ((List.range 72).flatMap fun n => [b2n (s.mbox n).full, (s.mbox n).sender, s.mboxRcv n]) ++
  ((List.range 32).map fun k => (SMap.get {} s.mbx.crooks k).owner) ++ [0, 0] ++
  ((s.col.insts.filter fun i => !i.released).flatMap fun i => [i.plan, i.step, waits i] ++ s.emptySlots i) ++
  [s.resPhase, s.res.rebuildQ.length]

/-- What a port's section holds. -/
def State.hcPort (s : State) (p : Nat) : List Nat :=
  let x := s.port p
  [x.sts.toNat] ++ (List.range 4).map (SMap.get 0 x.credits) ++
    (List.range 4).map (SMap.get 0 x.adv) ++ [x.seq, x.seqIn, x.unacked.length, s.now - x.recAt]

/-- What a base die's section holds: its watch entries, the instances whose windows it holds, the notices owed before a seal
is answered, its row repairs, and whether its stack is in self-refresh. A read-modify-write is whole within a step. -/
def State.hcDie (s : State) (d : Nat) : List Nat :=
  ((s.die d).watch.flatMap fun w => [w.fold, w.ctx, w.lo, w.hi]) ++
  [(s.col.insts.filter fun x => x.alloc && 0 < s.poolNeed x.plan d).length, s.notes.length,
    (s.die d).repairReg.toNat, b2n s.foldsDown]

/-- What the section of a fold that has power holds. -/
def State.hcFold (s : State) (f : Nat) : List Nat :=
  let v := s.fold f
  let th := fun (c t : Nat) =>
    let x := s.thread f c t
    match x.wait with
    | .event slot n _ _ dl => [x.st.code, x.pc.toNat, slot, n, (dl.map (· - s.now)).getD 0]
    | _ => [x.st.code, x.pc.toNat, 0, 0, 0]
  [(s.logicalOf f).getD 0xFFF] ++
    ((List.range 8).flatMap fun c => (List.range 8).flatMap (th c)) ++
    ((List.range 64).flatMap fun n => [(s.slot f n).count, (s.slot f n).waiters.length]) ++
    ((List.range 4).map fun i => (SMap.get ({} : Half) v.halves i).st.code) ++
    queueWords v.matQ (s.mxaWait f) ++
    ((List.range 8).flatMap fun c => queueWords (s.core f c).chainQ (s.vecWait f c)) ++
    queueWords v.strQ (s.strWait f) ++
    (List.range 16).flatMap fun k => [((s.ctx f k).map fun c => if c.held then 2 else 1).getD 0, s.ctxWait f k]

/-- Bytes of one section. A fold in Rest or Deep writes its state code, wherever that lies, and zeroes the rest (R631). -/
def section4 (sec len : Nat) (l : List Nat) : List Byte := (List.range len).map (Config.headcountByte sec l)
def State.foldSection (s : State) (f : Nat) : List Byte :=
  if s.foldsDown then
    (List.range 2048).map fun b => if b = Config.headcountAt % 2048 then BitVec.ofNat 8 s.pwr.state else 0
  else section4 (64 + f) 2048 (s.hcFold f)

/-- The snapshot of R633. -/
def State.snapshot (s : State) (cause t : Nat) : List Byte :=
  wordsBytes [put 0 8 0x90 ||| put 8 4 1 ||| put 12 2 cause, BitVec.ofNat 64 t] ++
  section4 1000 8 [s.hostCode, s.resSts.toNat] ++
  wordsBytes [s.res.regs.commitDev, s.res.regs.commitGlb, BitVec.ofNat 64 ((s.dbg.hcCount + 1) % 65536), 0, 0] ++
  section4 0 4032 s.hcHub ++
  ((List.range 6).flatMap fun p => section4 (1 + p) 256 (s.hcPort p)) ++
  ((List.range 20).flatMap fun d => section4 (16 + d) 256 (s.hcDie d)) ++
  List.replicate 1536 0#8 ++
  (List.range 336).flatMap s.foldSection

/-- HEADCOUNT_CAPTURE: 2,000 ticks after the request. A headcount changes nothing but its page and DBG_HC_STS (R632). -/
def opCapture (s : State) : State :=
  match s.dbg.hcReq with
  | none => s
  | some (t, cause) =>
    let s := { s with now := max s.now (t + 2000) }
    let s := s.write 0 (s.headcountPage * 0x200000) (s.snapshot cause (t + 2000))
    { s with dbg := { s.dbg with hcReq := none, hcCount := (s.dbg.hcCount + 1) % 65536 } }

end Sys2Proof.Machine
end

