-- ==== Sys2Proof/Machine/LinkCmds.lean ====
section
/-!
DEFINITION. Sys2Proof/Machine/LinkCmds.lean: the commands of the Drove Link ports (chapter 10) and the control records
of the resilience engine (R426). A row that names a packet acts on the oldest packet of its channel that may be
performed, when that is a packet of the row's kind; else nothing happens.
-/
namespace Sys2Proof.Machine

/-! ### The link layer -/

/-- FRAME_RECEIVE (R333, R335, R336). -/
def execFrameReceive (p : Fin 6) (fseq ack : Nat) (nak ok : Bool) (corr uncorr : Nat) (pkts : List Packet)
    (s : State) : Host.Outcome State Fault Refusal := done ((opFrame s p.val fseq ack nak ok corr uncorr pkts).markWaits p.val)

/-- REPLAY_TIMEOUT (R337). -/
def execReplayTimeout (p : Fin 6) (s : State) : Host.Outcome State Fault Refusal := done (opReplayTimeout s p.val)

/-- LINK_DOWN_TIMEOUT (R337). -/
def execLinkDownTimeout (p : Fin 6) (s : State) : Host.Outcome State Fault Refusal := done (opLinkDown s p.val)

/-- TRAINING_TIMEOUT (R338). -/
def execTrainingTimeout (p : Fin 6) (s : State) : Host.Outcome State Fault Refusal :=
  done (opTrainingTimeout s p.val)

/-- TRAINING_RETRY (R338). -/
def execTrainingRetry (p : Fin 6) (s : State) : Host.Outcome State Fault Refusal := done (opTrainingRetry s p.val)

/-- LINK_HANDSHAKE (R340–R342). -/
def execLinkHandshake (p : Fin 6) (ws : List W64) (s : State) : Host.Outcome State Fault Refusal :=
  done (opHandshake s p.val ws)

/-- EQUALISATION (R339). -/
def execEqualisation (p : Fin 6) (lanes : BitVec 16) (s : State) : Host.Outcome State Fault Refusal :=
  done (opEqualisation s p.val lanes)

/-- TIME_EXCHANGE (R358, R359). -/
def execTimeExchange (p : Fin 6) (s : State) : Host.Outcome State Fault Refusal := done (opTimeExchange s p.val)

/-! ### Packets -/

/-- DATA (R345, R351, R352). -/
def execData (p : Fin 6) (vc : Fin 4) (s : State) : Host.Outcome State Fault Refusal :=
  done (s.rxRow p.val vc.val .data)

/-- RACC (R382–R385). -/
def execRacc (p : Fin 6) (s : State) : Host.Outcome State Fault Refusal := done (s.rxRow p.val vcGRAD .racc)

/-- SIGNAL (R344, R351, R353). -/
def execSignal (p : Fin 6) (vc : Fin 4) (s : State) : Host.Outcome State Fault Refusal :=
  done (s.rxRow p.val vc.val .signal)

/-- MAILBOX (R332, R354, R355). -/
def execMailbox (p : Fin 6) (s : State) : Host.Outcome State Fault Refusal := done (s.rxRow p.val vcCTL .mailbox)

/-- WAKE (R354, R356). -/
def execWake (p : Fin 6) (s : State) : Host.Outcome State Fault Refusal := done (s.rxRow p.val vcCTL .wake)

/-- CMD (R354). -/
def execCmd (p : Fin 6) (s : State) : Host.Outcome State Fault Refusal := done (s.rxRow p.val vcCTL .cmd)

/-- READ_REQ (R354). -/
def execReadReq (p : Fin 6) (s : State) : Host.Outcome State Fault Refusal := done (s.rxRow p.val vcCTL .readReq)

/-- BACKUP_REQ (R403). -/
def execBackupReq (p : Fin 6) (s : State) : Host.Outcome State Fault Refusal :=
  done (s.rxRow p.val vcCTL .backupReq)

/-- RESEND (R391). -/
def execResend (p : Fin 6) (s : State) : Host.Outcome State Fault Refusal := done (s.rxRow p.val vcCTL .resend)

/-- MIRROR (R433). -/
def execMirror (p : Fin 6) (s : State) : Host.Outcome State Fault Refusal := done (s.rxRow p.val vcRES .mirror)

/-- SHARE (R442, R443). -/
def execShare (p : Fin 6) (s : State) : Host.Outcome State Fault Refusal := done (s.rxRow p.val vcRES .share)

/-- RESTORE (R442, R468). -/
def execRestore (p : Fin 6) (s : State) : Host.Outcome State Fault Refusal := done (s.rxRow p.val vcRES .restore)

/-- TIME (R358). -/
def execTime (p : Fin 6) (s : State) : Host.Outcome State Fault Refusal := done (s.rxRow p.val vcHdr .time)

/-- CREDIT (R344, R348). -/
def execCredit (p : Fin 6) (s : State) : Host.Outcome State Fault Refusal := done (s.rxRow p.val vcHdr .credit)

/-! ### DRV_CTL (R361, R364) -/

/-- A write to DRV_CTL by the secure domain. -/
def State.writeDrvCtl (s : State) (who p : Nat) (v : W64) : State :=
  if !secureAgent who then s
  else
    let x := s.port p
    let dis := bit v 1
    let s := s.setPort p { x with disable := dis }
    match x.st with
    | .reset => s
    | .disabled => if dis then s else s.train p
    | _ => if dis || bit v 0 then s.leave p none false else s

/-! ### Control records (R426) -/

/-- VOTE (R428). -/
def execVote (p : Fin 6) (s : State) : Host.Outcome State Fault Refusal := done (s.rxRow p.val vcRES (.ctrl 0x01))

/-- GLOBAL (R429). -/
def execGlobal (p : Fin 6) (s : State) : Host.Outcome State Fault Refusal := done (s.rxRow p.val vcRES (.ctrl 0x02))

/-- MIRROR_DONE (R432, R433). -/
def execMirrorDone (p : Fin 6) (s : State) : Host.Outcome State Fault Refusal :=
  done (s.rxRow p.val vcRES (.ctrl 0x03))

/-- MIRROR_ACK (R428, R432). -/
def execMirrorAck (p : Fin 6) (s : State) : Host.Outcome State Fault Refusal :=
  done (s.rxRow p.val vcRES (.ctrl 0x04))

/-- SHARE_ACK (R442, R443). -/
def execShareAck (p : Fin 6) (s : State) : Host.Outcome State Fault Refusal :=
  done (s.rxRow p.val vcRES (.ctrl 0x05))

/-- SNAP_OWN (R442, R443). -/
def execSnapOwn (p : Fin 6) (s : State) : Host.Outcome State Fault Refusal :=
  done (s.rxRow p.val vcRES (.ctrl 0x06))

/-- STOP (R458). -/
def execStopRecord (p : Fin 6) (s : State) : Host.Outcome State Fault Refusal :=
  done (s.rxRow p.val vcRES (.ctrl 0x07))

/-- RESUME_VOTE (R459). -/
def execResumeVote (p : Fin 6) (s : State) : Host.Outcome State Fault Refusal :=
  done (s.rxRow p.val vcRES (.ctrl 0x08))

/-- RESUME, the record (R459). -/
def execResumeRecord (p : Fin 6) (s : State) : Host.Outcome State Fault Refusal :=
  done (s.rxRow p.val vcRES (.ctrl 0x09))

/-- BEAT (R427). -/
def execBeat (p : Fin 6) (s : State) : Host.Outcome State Fault Refusal := done (s.rxRow p.val vcRES (.ctrl 0x0A))

/-- PAIR (R430). -/
def execPair (p : Fin 6) (s : State) : Host.Outcome State Fault Refusal := done (s.rxRow p.val vcRES (.ctrl 0x0B))

end Sys2Proof.Machine
end

