-- ==== Sys2Proof/Machine/Registers.lean ====
section
/-!
DEFINITION. Sys2Proof/Machine/Registers.lean: register space (R3, R39, R41, R485–R487): what a read of each register
returns and clears, and what a write sets, clears or starts. Offsets are those of the register descriptions.
-/
namespace Sys2Proof.Machine

/-- Index of a register in a row of `n` registers that begins at `base`, `step` bytes apart. -/
def rowIdx (off base step n : Nat) : Option Nat :=
  if base ≤ off && off < base + step * n && (off - base) % step = 0 then some ((off - base) / step) else none

/-- The word without a field. -/
def clr (w : W64) (lo len : Nat) : W64 := setFld w lo len 0

/-! ### Fold registers -/

/-- Registers of a core. -/
def State.rdCore (s : State) (f c base : Nat) : State × Option W64 :=
  let r := (s.core f c).regs
  match base with
  | 0x0400 => (s, some (s.thrSts f c))
  | 0x0440 => (s, some r.thrFault)
  | 0x0480 => (s, some r.thrFaddr)
  | 0x2100 => (s, some r.fpx)
  | 0x2140 => (s, some (s.vecSts f c))
  | 0x2180 => (s.coreRegs f c fun r => { r with vecCnt := 0 }, some r.vecCnt)
  | 0x21C0 => (s, some (s.cbCtl f c))
  | 0x2200 => (s, some r.cbGen)
  | 0x2240 => (s.coreRegs f c fun r => { r with rowSts := clr r.rowSts 16 32 }, some r.rowSts)
  | 0x2280 => (s, some r.srStep)
  | 0x22C0 => (s, some r.srMb)
  | _ => (s, none)

/-- Registers of a fold that no row of registers holds. -/
def State.rdFold1 (s : State) (f off : Nat) : State × Option W64 :=
  let r := (s.fold f).regs
  match off with
  | 0x0100 => (s, some (s.memCfg f))
  | 0x0108 => (s.foldRegs f fun r => { r with memErr := 0 }, some r.memErr)
  | 0x0300 => (s.foldRegs f fun r => { r with clampCnt := 0 }, some r.clampCnt)
  | 0x04C0 => (s.foldRegs f fun r => { r with issueErr := 0 }, some r.issueErr)
  | 0x0600 => (s, some r.pmcSel)
  | 0x0648 => (s, some r.pmcThr)
  | 0x1000 => (s, some (put 0 1 (b2n r.specEn)))
  | 0x1008 => (s, some (s.mxaHalf f))
  | 0x1010 => (s.foldRegs f fun r => { r with gateCnt := 0 }, some r.gateCnt)
  | 0x1018 => (s.foldRegs f fun r => { r with specCnt := 0 }, some r.specCnt)
  | 0x3000 => (s, some (s.strSts f))
  | 0x3008 => (s.foldRegs f fun r => { r with strErr := 0 }, some r.strErr)
  | 0x3010 => (s.foldRegs f fun r => { r with strDrop := 0 }, some r.strDrop)
  | 0x3018 => (s.foldRegs f fun r => { r with strWatch := 0 }, some r.strWatch)
  | 0x3020 => (s.foldRegs f fun r => { r with strIdx := 0 }, some r.strIdx)
  | _ => (s, none)

/-- The rows of registers that a fold has for its cores. -/
def coreRows : List Nat :=
  [0x0400, 0x0440, 0x0480, 0x2100, 0x2140, 0x2180, 0x21C0, 0x2200, 0x2240, 0x2280, 0x22C0]

/-- The core and the row of an offset. -/
def coreReg (off : Nat) : Option (Nat × Nat) := coreRows.findSome? fun b => (rowIdx off b 8 8).map fun c => (c, b)

def State.rdFold (s : State) (f off : Nat) : State × Option W64 :=
  match coreReg off with
  | some (c, b) => s.rdCore f c b
  | none =>
    match rowIdx off 0x0608 8 8, rowIdx off 0x0800 8 64 with
    | some n, _ => (s, some (s.pmcRead f n))
    | _, some n => (s, some (s.evtReg f n))
    | _, _ => s.rdFold1 f off

/-- FLD_THR_FAULT (R241): writing 1 to VALID clears VALID, CAUSE and MORE. -/
def opThrFaultClear (s : State) (f c : Nat) (v : W64) : State :=
  if bit v 11 then s.coreRegs f c fun r => { r with thrFault := clr (clr r.thrFault 0 8) 11 5 } else s

def State.wrCore (s : State) (f c base : Nat) (v : W64) : State :=
  match base with
  | 0x0440 => opThrFaultClear s f c v
  | 0x2100 => s.coreRegs f c fun r => { r with fpx := r.fpx &&& ~~~(put 0 6 (fld v 0 6)) }
  | 0x21C0 => opCbCtl s f c v
  | 0x2240 => if bit v 0 then s.coreRegs f c fun r => { r with rowSts := clr r.rowSts 0 1 } else s
  | 0x2280 => s.coreRegs f c fun r => { r with srStep := put 0 48 (fld v 0 48) }
  | 0x22C0 => s.coreRegs f c fun r => { r with srMb := put 0 13 (fld v 0 13) ||| put 16 6 (fld v 16 6) }
  | _ => s

def State.wrFold (s : State) (f off : Nat) (v : W64) : State :=
  match coreReg off with
  | some (c, b) => s.wrCore f c b v
  | none =>
    match rowIdx off 0x0608 8 8, rowIdx off 0x0800 8 64 with
    | some n, _ => opPmcWrite s f n v
    | _, some n => if bit v 16 then s.setSlot f n { s.slot f n with ovf := false } else s
    | _, _ =>
      match off with
      | 0x0600 => opPmcSel s f v
      | 0x0648 => s.foldRegs f fun r => { r with pmcThr := put 0 52 (fld v 0 52) }
      | 0x1000 => opMxaCtl s f v
      | _ => s

/-! ### Base-die registers -/

def State.rdDie (s : State) (d off : Nat) : State × Option W64 :=
  let x := s.die d
  match off with
  | 0x0100 => (s.updDie d fun v => { v with eccCnt := 0 }, some x.eccCnt)
  | 0x0108 => (s, some x.ueLog)
  | 0x0110 => (s, some x.repairReg)
  | 0x0200 => (s.updDie d fun v => { v with wHigh := v.watch.length, wRefused := 0 }, some x.watchReg)
  | _ => (s, none)

/-- STK_UE_LOG (R280): writing 1 to VALID clears VALID and MORE. -/
def opUeLogClear (s : State) (d : Nat) (v : W64) : State :=
  if bit v 50 then s.updDie d fun x => { x with ueLog := clr (clr x.ueLog 50 1) 56 4 } else s

def State.wrDie (s : State) (d off : Nat) (v : W64) : State :=
  match off with
  | 0x0108 => opUeLogClear s d v
  | 0x0110 => if bit v 37 then s.updDie d fun x => { x with exhaust := false } else s
  | _ => s

/-! ### Hub blocks -/

def State.rdHst (s : State) (off : Nat) : State × Option W64 :=
  let r := s.host.regs
  match off with
  | 0x00 => (s, some s.hstSts)
  | 0x08 | 0x10 | 0x20 => (s, some 0)
  | 0x18 => (s, some s.cmdFreeReg)
  | 0x28 => (s.hostRegs fun r => { r with cmdErr := 0 }, some r.cmdErr)
  | 0x30 => (s.hostRegs fun r => { r with cnt := 0 }, some r.cnt)
  | 0x38 => (s.hostRegs fun r => { r with narrowCnt := 0 }, some r.narrowCnt)
  | 0x40 => (s, some r.narrowAddr)
  | 0x48 => (s.hostRegs fun r => { r with boundsCnt := 0 }, some r.boundsCnt)
  | 0x50 => (s, some r.bar2Base)
  | 0x58 => (s, some (put 0 32 (fld r.secBeat 0 32)))
  | _ => (s, none)

def State.wrHst (s : State) (off : Nat) (v : W64) : State :=
  match off with
  | 0x08 => opHubm s v
  | 0x10 => opDoorbell s v
  | 0x20 => opResAck s v
  | 0x50 => s.hostRegs fun r => { r with bar2Base := put 21 19 (fld v 21 19) }
  | _ => s

def State.ofWord (s : State) : W64 := BitVec.ofNat 64 (leNat s.rdata)

/-- Mailboxes and crooks answer as the rows of chapter 13 do. -/
def State.rdMbx (s : State) (who off : Nat) : State × Option W64 :=
  let via := fun (t : State) => (t, some t.ofWord)
  match rowIdx (off / 8 * 8) 0 8 288, rowIdx off 0x1000 8 32 with
  | some i, _ =>
    let n := i / 4
    match i % 4 with
    | 0 => (s, some (if mboxOpen n who then (s.mbox n).word else 0))
    | 1 => via (opTake s who n)
    | 2 => via (opMboxSts s who n)
    | _ => (s, some (if mboxOpen n who then s.mboxCfg n else 0))
  | _, some k => via (opCrookRead s who k)
  | _, _ => if off = 0x2000 then (s, some (s.mbxFull (secureAgent who))) else (s, none)

def State.wrMbx (s : State) (who off : Nat) (v : W64) : State :=
  match rowIdx off 0 32 72, rowIdx off 0x1000 8 32 with
  | some n, _ => opMboxWrite s who n v
  | _, some k => opCrookWrite s who k v
  | _, _ => s

def State.rdPwr (s : State) (who off : Nat) : State × Option W64 :=
  let p := s.pwr
  match off with
  | 0x00 => (s, some s.pwrSts)
  | 0x08 => (s.updPwr fun p => { p with vinMin := 0xFFFF }, some s.pwrSupply)
  | 0x10 => (s, some p.cap)
  | 0x18 => (s.updPwr fun p => { p with tDieMax := 0, tStackMax := 0 }, some s.pwrTherm)
  | 0x20 => (s, some p.wakeLast)
  | 0x28 => (s.updPwr fun p => { p with reg := clr (clr p.reg 16 16) 48 8 }, some s.pwrReg)
  | 0x30 => (s, some (put 0 3 p.cause))
  | 0x38 => (s.updPwr fun p => { p with cnt := 0 }, some p.cnt)
  | 0x40 => (s, some (if secureAgent who then p.timer else 0))
  | _ => (s, none)

def State.wrPwr (s : State) (who off : Nat) (v : W64) : State :=
  match off with
  | 0x10 => s.writeCap v
  | 0x40 => if who = 2 then s.updPwr fun p => { p with timer := put 0 49 (fld v 0 49), timerAt := s.now } else s
  | _ => s

/-- SEC_STS for the secure domain, and its copy in DBG_SEC_VIEW (R604, R605). -/
def State.rdSec (s : State) (who off : Nat) : State × Option W64 :=
  if !secureAgent who then (s, some 0) else if off = 0 then (s, some s.secSts) else (s, none)

def State.rdDbg (s : State) (off : Nat) : State × Option W64 :=
  let trc := fun (d o : Nat) =>
    let t := s.trc d
    match o with
    | 0x00 => (s, some t.ctl)
    | 0x08 => (s, some t.spill)
    | 0x10 => (s, some t.trig)
    | 0x18 => (s.updTrc d fun t => { t with drops := 0 }, some t.sts)
    | 0x20 => (s, some t.pos)
    | _ => (s, none)
  if off < 0x40 then trc 0 off
  else if off < 0x80 then trc 1 (off - 0x40)
  else match off with
    | 0x0100 => (s, some s.dbg.hcCtl)
    | 0x0108 => (s, some s.dbg.hcDest)
    | 0x0110 => (s, some s.hcSts)
    | 0xF000 => (s, some s.secSts)
    | _ => (s, none)

def State.wrDbg (s : State) (who off : Nat) (v : W64) : State :=
  let trc := fun (d o : Nat) =>
    match o with
    | 0x00 => s.writeTrcCtl d v
    | 0x08 => s.writeTrcSpill d v
    | 0x10 => s.writeTrcTrig who d v
    | _ => s
  if off < 0x40 then trc 0 off
  else if off < 0x80 then trc 1 (off - 0x40)
  else match off with
    | 0x0100 => s.writeHcCtl v
    | 0x0108 => { s with dbg := { s.dbg with hcDest := put 21 19 (fld v 21 19) } }
    | _ => s

def State.rdCfg (s : State) (off : Nat) : State × Option W64 :=
  match rowIdx off 0x10000 8 320 with
  | some n => (s, some (s.fldMapReg n))
  | none =>
    match off with
    | 0x00 => (s, some archId)
    | 0x08 => (s, some s.cfg.bootReg)
    | 0x10 => (s, some s.cfgStage)
    | 0x18 => (s, some s.cfgFlash)
    | _ => (s, none)

def State.portRegs (s : State) (p : Nat) (g : PortRegs → PortRegs) : State :=
  s.updPort p fun x => { x with regs := g x.regs }

def State.rdDrv (s : State) (who p off : Nat) : State × Option W64 :=
  let x := s.port p
  match off with
  | 0x00 => (s, some (if secureAgent who then put 1 1 (b2n x.disable) else 0))
  | 0x08 => (s, some x.sts)
  | 0x10 => (s, some x.regs.vcCfg)
  | 0x18 => (s, some x.regs.tofs)
  | 0x20 => (s, some x.regs.tofsAt)
  | 0x28 => (s.portRegs p fun r => { r with linkCnt := 0 }, some x.regs.linkCnt)
  | 0x30 => (s.portRegs p fun r => { r with rxErr := 0 }, some x.regs.rxErr)
  | 0x38 => (s.portRegs p fun r => { r with rxCnt := 0 }, some x.regs.rxCnt)
  | _ => (s, none)

def State.rdCol (s : State) (off : Nat) : State × Option W64 :=
  match rowIdx off 0x10000 8 8192 with
  | some i => (s, some (SMap.get 0 s.col.planRec i))
  | none =>
    match off with
    | 0x00 => (s, some s.colSts)
    | 0x08 => (s, some (put 0 32 s.col.small))
    | 0x10 => ({ s with col := { s.col with cnt := 0 } }, some s.col.cnt)
    | 0x18 => ({ s with col := { s.col with dup := 0 } }, some s.col.dup)
    | _ => (s, none)

def State.rdRes (s : State) (off : Nat) : State × Option W64 :=
  let r := s.res.regs
  match off with
  | 0x00 => (s, some r.commitDev)
  | 0x08 => (s, some r.commitGlb)
  | 0x10 => (s, some s.resSts)
  | 0x18 => (s.modRegs fun r => { r with cnt := 0 }, some r.cnt)
  | 0x20 => (s, some r.snap)
  | 0x28 => (s, some s.resSpare)
  | 0x30 => (s, some r.fault)
  | 0x38 => (s, some r.tally)
  | 0x40 => (s, some r.kept)
  | 0x48 => (s, some r.keptJob)
  | _ => (s, none)

/-- RES_FAULT (R477): writing 1 to VALID clears VALID and MORE. -/
def opResFaultClear (s : State) (v : W64) : State :=
  if bit v 24 then s.modRegs fun r => { r with fault := clr (clr r.fault 24 1) 28 4 } else s

/-- A hub block by its offset (R39). -/
def State.rdHub (s : State) (who off : Nat) : State × Option W64 :=
  if off < 0x100000 then s.rdHst off
  else if off < 0x200000 then s.rdMbx who (off - 0x100000)
  else if off < 0x300000 then s.rdPwr who (off - 0x200000)
  else if off < 0x400000 then s.rdSec who (off - 0x300000)
  else if off < 0x500000 then s.rdDbg (off - 0x400000)
  else if off < 0x600000 then s.rdCfg (off - 0x500000)
  else if off < 0x660000 then s.rdDrv who ((off - 0x600000) / 0x10000) ((off - 0x600000) % 0x10000)
  else if 0x700000 ≤ off && off < 0x780000 then s.rdCol (off - 0x700000)
  else if 0x780000 ≤ off && off < 0x800000 then s.rdRes (off - 0x780000)
  else if off = 0x800000 then (s, some (BitVec.ofNat 64 s.now))
  else (s, none)

def State.wrHub (s : State) (who off : Nat) (v : W64) : State :=
  if off < 0x100000 then s.wrHst off v
  else if off < 0x200000 then s.wrMbx who (off - 0x100000) v
  else if off < 0x300000 then s.wrPwr who (off - 0x200000) v
  else if off < 0x400000 then s
  else if off < 0x500000 then s.wrDbg who (off - 0x400000) v
  else if off < 0x600000 then (if off = 0x500018 then s.writeFlash v else s)
  else if off < 0x660000 then
    (if (off - 0x600000) % 0x10000 = 0 then s.writeDrvCtl who ((off - 0x600000) / 0x10000) v else s)
  else if off = 0x780030 then opResFaultClear s v
  else s

/-! ### Register space as a whole -/

/-- A completed 64-bit read of a register by a requester that may reach its window. -/
def State.readReg (s : State) (who : Nat) (pl : Place) : State × W64 :=
  let (t, v) := match pl with
    | .foldReg f off => s.rdFold f off
    | .dieReg d off => s.rdDie d off
    | .hub off => s.rdHub who off
    | _ => (s, none)
  let key := match pl with
    | .foldReg f off => f * 0x10000 + off
    | .dieReg d off => 2 ^ 32 + d * 0x100000 + off
    | .hub off => 2 ^ 33 + off
    | _ => 0
  (t, v.getD (Config.noRegister key))

/-- A write to a register. -/
def State.writeReg (s : State) (who : Nat) (pl : Place) (v : W64) : State :=
  match pl with
  | .foldReg f off => s.wrFold f off v
  | .dieReg d off => s.wrDie d off v
  | .hub off => s.wrHub who off v
  | _ => s

def allOnes : W64 := BitVec.allOnes 64

/-- An access to the registers of a fold in Graze wakes it first (R552). -/
def State.rouseAt (s : State) (pl : Place) : State :=
  match pl with
  | .foldReg f _ => s.grazeExit f
  | _ => s

/-- A read by a requester: before start-up the host sees HST_STS alone (R482); a fold that R41 forbids is refused. -/
def State.busRead (s : State) (who : Nat) (pl : Place) : State :=
  if !s.hubOn then s
  else if who = 1 && !s.host.ready && pl ≠ .hub 0 then s.answerWord allOnes
  else
    let shut := match pl with
      | .foldReg f _ => !s.foldRegOpen who f
      | _ => false
    if shut then (s.hostRefused who).answerWord allOnes
    else
      let (t, v) := (s.rouseAt pl).readReg who pl
      t.answerWord v

/-- A write by a requester. -/
def State.busWrite (s : State) (who : Nat) (pl : Place) (v : W64) : State :=
  if !s.hubOn || (who = 1 && !s.host.ready) then s
  else
    let shut := match pl with
      | .foldReg f _ => !s.foldRegOpen who f
      | _ => false
    if shut then s.hostRefused who else (s.rouseAt pl).writeReg who pl v

/-- A 64-bit write of the host to BAR0 (R485–R487, R493). -/
def State.bar0Write (s : State) (off : Nat) (v : W64) : State :=
  if !s.hubOn || !s.host.ready || off % 8 ≠ 0 then s
  else match bar0Place off with
    | .hub o => s.busWrite 1 (.hub o) v
    | .cmd w => s.updHost fun h => { h with slots := SMap.set 0 h.slots w v }
    | .res _ => s
    | .msix o => s.msixWrite (o / 8 * 8) 8 v
    | .pba => s
    | .die d o => s.busWrite 1 (.dieReg d o) v
    | .fold f o => s.busWrite 1 (.foldReg f o) v
    | .nowhere => s.hostRefused 1

/-- REGISTER_WRITE: the host names BAR0 offsets, every other agent device addresses. -/
def opRegWrite (s : State) (who addr : Nat) (v : W64) : State :=
  if who = 1 then s.bar0Write addr v
  else if addr % 8 = 0 && isRegSpace addr then s.busWrite who (place addr) v else s

/-- REGISTER_ACCESS_DONE (R210, R236): the access is performed under the core's agent number. -/
def opRegDone (s : State) (t : Tid) : State :=
  let f := t.fold.val
  let c := t.core.val
  let who := coreAgent f c
  match (s.thread f c t.thr.val).wait with
  | .regRead a rd =>
    if s.asleep f a then s else
    let (s, v) := s.readReg who (place a)
    (s.putReg f c t.thr.val rd v).wake f c t.thr.val
  | .regWrite a v => if s.asleep f a then s else (s.writeReg who (place a) v).wake f c t.thr.val
  | _ => s

end Sys2Proof.Machine
end

