-- ==== Sys2Proof/Machine/AccessCmds.lean ====
section
/-!
DEFINITION. Sys2Proof/Machine/AccessCmds.lean: the rows that are one access to one register: writes that clear, and reads that
clear what they return (access type RC).
-/
namespace Sys2Proof.Machine

/-- The place of a register of a hub block. -/
def hubReg (block off : Nat) : Place := .hub (block + off)

/-- REGISTER_ACCESS_DONE (R210, R245). -/
def execRegisterAccessDone (t : Tid) (s : State) : Host.Outcome State Fault Refusal := done (opRegDone s t)

/-- REGISTER_WRITE (R3, the access types). -/
def execRegisterWrite (who addr : Nat) (v : W64) (s : State) : Host.Outcome State Fault Refusal :=
  done (opRegWrite s who addr v)

/-- SLOT_CLR: MXA_CTL.SLOT_CLR = 1 (R133, R141). -/
def execSlotClr (who : Nat) (f : FoldNo) (v : W64) (s : State) : Host.Outcome State Fault Refusal :=
  done (if bit v 1 then s.busWrite who (.foldReg f.val 0x1000) v else s)

/-- CODEBOOK_LOAD: VEC_CB_CTL.LOAD = 1 (R171–R173, R181). -/
def execCodebookLoad (who : Nat) (f : FoldNo) (c : Fin 8) (v : W64) (s : State) : Host.Outcome State Fault Refusal :=
  done (if bit v 25 then s.busWrite who (.foldReg f.val (0x21C0 + 8 * c.val)) v else s)

/-- DRV_CTL of a port. -/
def drvCtlReg (p : Fin 6) : Place := .hub (0x600000 + 0x10000 * p.val)

/-- PORT_RESET: DRV_CTL.RESET = 1 (R361, R364). -/
def execPortReset (who : Nat) (p : Fin 6) (v : W64) (s : State) : Host.Outcome State Fault Refusal :=
  done (if bit v 0 then s.busWrite who (drvCtlReg p) v else s)

/-- PORT_DISABLE: a write of DRV_CTL.DISABLE (R364). -/
def execPortDisable (who : Nat) (p : Fin 6) (v : W64) (s : State) : Host.Outcome State Fault Refusal :=
  done (s.busWrite who (drvCtlReg p) v)

/-- DOORBELL (R493–R498). -/
def execDoorbell (v : W64) (s : State) : Host.Outcome State Fault Refusal := done (s.busWrite 1 (hubReg 0 0x10) v)

/-- HST_RES_ACK (R507, R508). -/
def execHstResAck (v : W64) (s : State) : Host.Outcome State Fault Refusal := done (s.busWrite 1 (hubReg 0 0x20) v)

/-- HUBM_RESET (R522). -/
def execHubmReset (v : W64) (s : State) : Host.Outcome State Fault Refusal := done (s.busWrite 1 (hubReg 0 0x08) v)

/-- MBX_DATA_WRITE (R512–R517). -/
def execMbxDataWrite (who : Nat) (n : Fin 72) (v : W64) (s : State) : Host.Outcome State Fault Refusal :=
  done (s.busWrite who (hubReg 0x100000 (32 * n.val)) v)

/-- MBX_TAKE (R513). -/
def execMbxTake (who : Nat) (n : Fin 72) (s : State) : Host.Outcome State Fault Refusal :=
  done (s.busRead who (hubReg 0x100000 (32 * n.val + 8)))

/-- MBX_STS_READ (R531). -/
def execMbxStsRead (who : Nat) (n : Fin 72) (s : State) : Host.Outcome State Fault Refusal :=
  done (s.busRead who (hubReg 0x100000 (32 * n.val + 16)))

/-- CROOK_READ (R519). -/
def execCrookRead (who : Nat) (k : Fin 32) (s : State) : Host.Outcome State Fault Refusal :=
  done (s.busRead who (hubReg 0x101000 (8 * k.val)))

/-- CROOK_WRITE (R520). -/
def execCrookWrite (who : Nat) (k : Fin 32) (v : W64) (s : State) : Host.Outcome State Fault Refusal :=
  done (s.busWrite who (hubReg 0x101000 (8 * k.val)) v)

/-- PWR_CAP_WRITE (R562, R566). -/
def execPwrCapWrite (who : Nat) (v : W64) (s : State) : Host.Outcome State Fault Refusal :=
  done (s.busWrite who (hubReg 0x200000 0x10) v)

/-- FLD_THR_FAULT_CLEAR (R241). -/
def execFldThrFaultClear (who : Nat) (f : FoldNo) (c : Fin 8) (v : W64) (s : State) : Host.Outcome State Fault Refusal :=
  done (s.busWrite who (.foldReg f.val (0x0440 + 8 * c.val)) v)

/-- STK_UE_LOG_CLEAR (R280). -/
def execStkUeLogClear (who : Nat) (d : Fin 20) (v : W64) (s : State) : Host.Outcome State Fault Refusal :=
  done (s.busWrite who (.dieReg d.val 0x0108) v)

/-- RES_FAULT_CLEAR (R477). -/
def execResFaultClear (who : Nat) (v : W64) (s : State) : Host.Outcome State Fault Refusal :=
  done (s.busWrite who (hubReg 0x780000 0x30) v)

/-- FLD_PMC_WRITE (R628, R640). -/
def execFldPmcWrite (who : Nat) (f : FoldNo) (n : Fin 8) (v : W64) (s : State) : Host.Outcome State Fault Refusal :=
  done (s.busWrite who (.foldReg f.val (0x0608 + 8 * n.val)) v)

/-- FLD_CLAMP_CNT_READ (R103). -/
def execFldClampCntRead (who : Nat) (f : FoldNo) (s : State) : Host.Outcome State Fault Refusal :=
  done (s.busRead who (.foldReg f.val 0x0300))

/-- MXA_GATE_CNT_READ (R143). -/
def execMxaGateCntRead (who : Nat) (f : FoldNo) (s : State) : Host.Outcome State Fault Refusal :=
  done (s.busRead who (.foldReg f.val 0x1010))

/-- MXA_SPEC_CNT_READ (R144). -/
def execMxaSpecCntRead (who : Nat) (f : FoldNo) (s : State) : Host.Outcome State Fault Refusal :=
  done (s.busRead who (.foldReg f.val 0x1018))

/-- VEC_CNT_READ (R180). -/
def execVecCntRead (who : Nat) (f : FoldNo) (c : Fin 8) (s : State) : Host.Outcome State Fault Refusal :=
  done (s.busRead who (.foldReg f.val (0x2180 + 8 * c.val)))

/-- VEC_ROWSTS_READ (R205). -/
def execVecRowstsRead (who : Nat) (f : FoldNo) (c : Fin 8) (s : State) : Host.Outcome State Fault Refusal :=
  done (s.busRead who (.foldReg f.val (0x2240 + 8 * c.val)))

/-- FLD_ISSUE_ERR_READ (R243). -/
def execFldIssueErrRead (who : Nat) (f : FoldNo) (s : State) : Host.Outcome State Fault Refusal :=
  done (s.busRead who (.foldReg f.val 0x04C0))

/-- FLD_MEM_ERR_READ (R278). -/
def execFldMemErrRead (who : Nat) (f : FoldNo) (s : State) : Host.Outcome State Fault Refusal :=
  done (s.busRead who (.foldReg f.val 0x0108))

/-- STK_ECC_CNT_READ (R279). -/
def execStkEccCntRead (who : Nat) (d : Fin 20) (s : State) : Host.Outcome State Fault Refusal :=
  done (s.busRead who (.dieReg d.val 0x0100))

/-- STR_ERR_READ (R325). -/
def execStrErrRead (who : Nat) (f : FoldNo) (s : State) : Host.Outcome State Fault Refusal :=
  done (s.busRead who (.foldReg f.val 0x3008))

/-- STR_DROP_READ (R326). -/
def execStrDropRead (who : Nat) (f : FoldNo) (s : State) : Host.Outcome State Fault Refusal :=
  done (s.busRead who (.foldReg f.val 0x3010))

/-- STR_WATCH_READ (R327). -/
def execStrWatchRead (who : Nat) (f : FoldNo) (s : State) : Host.Outcome State Fault Refusal :=
  done (s.busRead who (.foldReg f.val 0x3018))

/-- STR_IDX_READ (R328). -/
def execStrIdxRead (who : Nat) (f : FoldNo) (s : State) : Host.Outcome State Fault Refusal :=
  done (s.busRead who (.foldReg f.val 0x3020))

/-- STK_WATCH_READ (R329). -/
def execStkWatchRead (who : Nat) (d : Fin 20) (s : State) : Host.Outcome State Fault Refusal :=
  done (s.busRead who (.dieReg d.val 0x0200))

/-- DRV_LINK_CNT_READ (R368). -/
def execDrvLinkCntRead (who : Nat) (p : Fin 6) (s : State) : Host.Outcome State Fault Refusal :=
  done (s.busRead who (.hub (0x600000 + 0x10000 * p.val + 0x28)))

/-- DRV_RX_ERR_READ (R369). -/
def execDrvRxErrRead (who : Nat) (p : Fin 6) (s : State) : Host.Outcome State Fault Refusal :=
  done (s.busRead who (.hub (0x600000 + 0x10000 * p.val + 0x30)))

/-- DRV_RX_CNT_READ (R370). -/
def execDrvRxCntRead (who : Nat) (p : Fin 6) (s : State) : Host.Outcome State Fault Refusal :=
  done (s.busRead who (.hub (0x600000 + 0x10000 * p.val + 0x38)))

/-- COL_CNT_READ (R412). -/
def execColCntRead (who : Nat) (s : State) : Host.Outcome State Fault Refusal :=
  done (s.busRead who (hubReg 0x700000 0x10))

/-- COL_DUP_READ (R413). -/
def execColDupRead (who : Nat) (s : State) : Host.Outcome State Fault Refusal :=
  done (s.busRead who (hubReg 0x700000 0x18))

/-- RES_CNT_READ (R474). -/
def execResCntRead (who : Nat) (s : State) : Host.Outcome State Fault Refusal :=
  done (s.busRead who (hubReg 0x780000 0x18))

/-- HST_CMD_ERR_READ (R526). -/
def execHstCmdErrRead (who : Nat) (s : State) : Host.Outcome State Fault Refusal :=
  done (s.busRead who (hubReg 0 0x28))

/-- HST_CNT_READ (R527). -/
def execHstCntRead (who : Nat) (s : State) : Host.Outcome State Fault Refusal := done (s.busRead who (hubReg 0 0x30))

/-- HST_NARROW_CNT_READ (R528). -/
def execHstNarrowCntRead (who : Nat) (s : State) : Host.Outcome State Fault Refusal :=
  done (s.busRead who (hubReg 0 0x38))

/-- HST_BOUNDS_CNT_READ (R528). -/
def execHstBoundsCntRead (who : Nat) (s : State) : Host.Outcome State Fault Refusal :=
  done (s.busRead who (hubReg 0 0x48))

/-- PWR_SUPPLY_READ (R565). -/
def execPwrSupplyRead (who : Nat) (s : State) : Host.Outcome State Fault Refusal :=
  done (s.busRead who (hubReg 0x200000 0x08))

/-- PWR_THERM_READ (R567). -/
def execPwrThermRead (who : Nat) (s : State) : Host.Outcome State Fault Refusal :=
  done (s.busRead who (hubReg 0x200000 0x18))

/-- PWR_REG_READ (R569). -/
def execPwrRegRead (who : Nat) (s : State) : Host.Outcome State Fault Refusal :=
  done (s.busRead who (hubReg 0x200000 0x28))

/-- PWR_CNT_READ (R571). -/
def execPwrCntRead (who : Nat) (s : State) : Host.Outcome State Fault Refusal :=
  done (s.busRead who (hubReg 0x200000 0x38))

/-- DBG_TRC_STS_READ (R638). -/
def execDbgTrcStsRead (who : Nat) (die : Fin 2) (s : State) : Host.Outcome State Fault Refusal :=
  done (s.busRead who (.hub (0x400018 + 0x40 * die.val)))

end Sys2Proof.Machine
end

