-- ==== Sys2Proof/Machine/ColCmds.lean ====
section
/-!
DEFINITION. Sys2Proof/Machine/ColCmds.lean: the commands of the collective engine (chapter 11), of the resilience engine
and of the shepherd (chapter 12) that no packet brings.
-/
namespace Sys2Proof.Machine

/-! ### The collective engine -/

/-- INSTANCE_ALLOCATE (R375, R386). -/
def execInstanceAllocate (plan : Nat) (s : State) : Host.Outcome State Fault Refusal :=
  done (opInstanceAllocate s plan)

/-- REDUCE_COMPLETE (R392–R394, R406). -/
def execReduceComplete (plan step : Nat) (s : State) : Host.Outcome State Fault Refusal :=
  done (opReduceComplete s plan step)

/-- BACKUP_DEADLINE (R403). -/
def execBackupDeadline (plan step : Nat) (s : State) : Host.Outcome State Fault Refusal :=
  done (opBackupDeadline s plan step)

/-- REDUCE_TIMEOUT (R404). -/
def execReduceTimeout (plan step : Nat) (s : State) : Host.Outcome State Fault Refusal :=
  done (opReduceTimeout s plan step)

/-! ### The resilience engine -/

/-- BEAT_SEND (R427). -/
def execBeatSend (s : State) : Host.Outcome State Fault Refusal := done (opBeatSend s)

/-- PEER_LOST (R427, R468). -/
def execPeerLost (p : Fin 6) (s : State) : Host.Outcome State Fault Refusal := done (opPeerLost s p.val)

/-- MIRROR_DONE sent (R432). -/
def execMirrorDoneSend (s : State) : Host.Outcome State Fault Refusal := done (opMirrorDone s)

/-- PORT_RETURN_TIMEOUT (R462). -/
def execPortReturnTimeout (p : Fin 6) (s : State) : Host.Outcome State Fault Refusal := done (opPortReturn s p.val)

/-! ### The shepherd and rebuilds -/

/-- HEARTBEAT_MISS (R451–R455). -/
def execHeartbeatMiss (agent : Nat) (s : State) : Host.Outcome State Fault Refusal := done (opHeartbeat s agent)

/-- SHEPHERD_RESTART_TIMEOUT (R456). -/
def execShepherdRestartTimeout (s : State) : Host.Outcome State Fault Refusal := done (opShepherdTimeout s)

/-- TEST (R463, R464). -/
def execTest (pass : Bool) (s : State) : Host.Outcome State Fault Refusal := done (opTest s pass)

/-- CLEAR (R463). -/
def execClear (s : State) : Host.Outcome State Fault Refusal := done (opClear s)

/-- MAP (R463). -/
def execMap (s : State) : Host.Outcome State Fault Refusal := done (opMap s)

end Sys2Proof.Machine
end

