-- ==== Sys2Proof/Machine/DebugCmds.lean ====
section
/-!
DEFINITION. Sys2Proof/Machine/DebugCmds.lean: the commands of chapter 16. Each of TRACE_ENABLE, FLUSH, REARM and TRIG_NOW is a
write of the whole register whose field the row names.
-/
namespace Sys2Proof.Machine

/-- DBG_TRC_CTL_d and DBG_TRC_TRIG_d (R636, R637). -/
def trcCtlReg (d : Nat) : Place := .hub (0x400000 + 0x40 * d)
def trcTrigReg (d : Nat) : Place := .hub (0x400010 + 0x40 * d)

/-- TRACE_ENABLE (R617). -/
def execTraceEnable (who : Nat) (die : Fin 2) (v : W64) (s : State) : Host.Outcome State Fault Refusal :=
  done (s.busWrite who (trcCtlReg die.val) v)

/-- FLUSH (R626): a write with FLUSH = 1. -/
def execFlush (who : Nat) (die : Fin 2) (v : W64) (s : State) : Host.Outcome State Fault Refusal :=
  done (if bit v 3 then s.busWrite who (trcCtlReg die.val) v else s)

/-- REARM (R626): a write with REARM = 1. -/
def execRearm (who : Nat) (die : Fin 2) (v : W64) (s : State) : Host.Outcome State Fault Refusal :=
  done (if bit v 4 then s.busWrite who (trcCtlReg die.val) v else s)

/-- TRIG_NOW (R624): a write with TRIG_NOW = 1. -/
def execTrigNow (who : Nat) (die : Fin 2) (v : W64) (s : State) : Host.Outcome State Fault Refusal :=
  done (if bit v 20 then s.busWrite who (trcTrigReg die.val) v else s)

/-- TRACE_FREEZE (R624). -/
def execTraceFreeze (die : Fin 2) (s : State) : Host.Outcome State Fault Refusal := done (opFreeze s die.val)

/-- TRACE_FLUSH_DONE (R626). -/
def execTraceFlushDone (die : Fin 2) (s : State) : Host.Outcome State Fault Refusal := done (opFlushDone s die.val)

/-- TRACE_SAMPLE (R629). -/
def execTraceSample (s : State) : Host.Outcome State Fault Refusal := done (opTrcSample s)

/-- TRACE_SYNC (R615). -/
def execTraceSync (s : State) : Host.Outcome State Fault Refusal := done (opSync s)

/-- HEADCOUNT_TAKE (R630): a write of DBG_HC_CTL with TAKE = 1. -/
def execHeadcountTake (who : Nat) (v : W64) (s : State) : Host.Outcome State Fault Refusal :=
  done (if bit v 0 then s.busWrite who (.hub 0x400100) v else s)

/-- HEADCOUNT_WATCHDOG (R630). -/
def execHeadcountWatchdog (s : State) : Host.Outcome State Fault Refusal := done (opWatchdog s)

/-- HEADCOUNT_CAPTURE (R631–R633). -/
def execHeadcountCapture (s : State) : Host.Outcome State Fault Refusal := done (opCapture s)

end Sys2Proof.Machine
end

