-- ==== Sys2Proof/Machine/HostCmds.lean ====
section
/-!
DEFINITION. Sys2Proof/Machine/HostCmds.lean: the commands of chapter 13 but for those that install, start and change a job
(LoadCmds, StartCmds). The row of a host command acts on the oldest accepted command of its OP (log entry 18).
-/
namespace Sys2Proof.Machine

/-- NOP. -/
def opNop (s : State) : State :=
  match s.cmdOf 0x01 with
  | some c => s.complete c .ok [s.res.regs.commitGlb]
  | none => s

/-- QUERY_TENSOR. -/
def opQueryTensor (s : State) : State :=
  match s.cmdOf 0x0A with
  | none => s
  | some c =>
    let i := fld (wd c.words 2) 0 12
    if s.prots.length ≤ i then s.complete c .bounds []
    else
      let e := s.ent i
      s.complete c .ok [BitVec.ofNat 64 (s.heldAddr e s.nextStep), BitVec.ofNat 64 s.nextStep - 1,
        BitVec.ofNat 64 (s.cls i), BitVec.ofNat 64 (ptSize e)]

/-- TALLY_READ: the checks, in the order of R496. -/
def State.tallyReadStatus (s : State) (first count dst : Nat) : Status :=
  if count = 0 || 65536 < count || first + 65536 < s.head || s.head < first + count then .bounds
  else match place dst with
    | .inter _ => s.accStatus 1 .hostWrite dst (64 * count)
    | _ => .bounds

def opTallyRead (s : State) : State :=
  match s.cmdOf 0x09 with
  | none => s
  | some c =>
    let first := (wd c.words 2).toNat
    let count := fld (wd c.words 3) 0 17
    let dst := (wd c.words 4).toNat
    match s.tallyReadStatus first count dst with
    | .ok =>
      let s := (List.range count).foldl (fun s i =>
        let a := s.tallySlot (first + i)
        let s := s.corrected a 64
        let s := match s.ueIn a 64 with
          | some u => s.consumeUE 0 u
          | none => s
        s.write 0 (dst + 64 * i) (s.moveBytes a 64)) s
      s.complete c .ok [s.res.regs.tally]
    | e => s.complete c e []

/-- FUSE_REPAIR: the fuse program begins (R275, R538); it waits for another that is in progress (R591). -/
def opFuseRepair (s : State) : State :=
  match s.cmdOf 0x0C with
  | none => s
  | some c =>
    if c.started || s.sec.fuse.isSome then s
    else if 2 ≤ s.pwr.level then s.complete c .supplyLow []
    else
      let s := s.updCmd c fun d => { d with started := true }
      { s with sec := { s.sec with fuse := some { kind := 1, arg := 0, req := 0, jtag := false } } }

/-- WARM_RESET (R498, R642). -/
def opWarmReset (s : State) : State := if (s.cmdOf 0x0D).isSome then s.warmReset else s

/-- NARROW_ACCESS (R4, R487). -/
def execNarrowAccess (off : Nat) (write : Bool) (v : W32) (s : State) : Host.Outcome State Fault Refusal :=
  done (opNarrow s off write v)

/-- BAR2_READ (R488–R491, R271). -/
def execBar2Read (off len : Nat) (s : State) : Host.Outcome State Fault Refusal := done (opBar2Read s off len)

/-- BAR2_WRITE (R488–R491, R255). -/
def execBar2Write (off : Nat) (bytes : List Byte) (s : State) : Host.Outcome State Fault Refusal :=
  done (opBar2Write s off bytes)

/-- POISONED_TLP (R480). -/
def execPoisonedTlp (s : State) : Host.Outcome State Fault Refusal := done (opPoisoned s)

/-- CONFIGURATION_REQUEST (R480–R482). -/
def execConfigurationRequest (r : CfgReq) (s : State) : Host.Outcome State Fault Refusal :=
  done (opCfgReq s r)

/-- NOP (R496). -/
def execNop (s : State) : Host.Outcome State Fault Refusal := done (opNop s)

/-- PERST_ASSERT (R642). -/
def execPerstAssert (s : State) : Host.Outcome State Fault Refusal := done (opPerstAssert s)

/-- PERST_RELEASE (R482). -/
def execPerstRelease (s : State) : Host.Outcome State Fault Refusal := done (opPerstRelease s)

/-- RESULT_SLOT_READ (R506). -/
def execResultSlotRead (slot : Fin 256) (word : Fin 8) (len : Nat) (s : State) : Host.Outcome State Fault Refusal :=
  done (opResultRead s slot.val word.val len)

/-- ASPM_L1_ENTRY (R483). -/
def execAspmL1Entry (s : State) : Host.Outcome State Fault Refusal := done (opL1Entry s)

/-- PCIE_L1 (R555). -/
def execPcieL1 (s : State) : Host.Outcome State Fault Refusal := done (opL1Exit s)

/-- QUERY_TENSOR (R496, R418). -/
def execQueryTensor (s : State) : Host.Outcome State Fault Refusal := done (opQueryTensor s)

/-- TALLY_READ (R496). -/
def execTallyRead (s : State) : Host.Outcome State Fault Refusal := done (opTallyRead s)

/-- FUSE_REPAIR (R275, R496). -/
def execFuseRepair (s : State) : Host.Outcome State Fault Refusal := done (opFuseRepair s)

/-- WARM_RESET (R642). -/
def execWarmReset (s : State) : Host.Outcome State Fault Refusal := done (opWarmReset s)

end Sys2Proof.Machine
end

