-- ==== Sys2Proof/Machine/IssueChecks.lean ====
section
/-!
DEFINITION. Sys2Proof/Machine/IssueChecks.lean: the checks that the engines make of the descriptors they are handed
(R128, R156, R289, R315, R321), each in its chapter's order.
-/
namespace Sys2Proof.Machine

/-! ### Where tensors may lie -/

/-- The address of a fold's own fold store. -/
def ownStore (f a : Nat) : Bool :=
  match place a with
  | .store g _ => g = f
  | _ => false

def anyStore (a : Nat) : Bool :=
  match place a with
  | .store .. => true
  | _ => false

/-- Every byte run that a window reaches starts and ends at addresses of one kind; the base stands for a window that
reaches nothing. -/
def TDesc.placed (t : TDesc) (dest : Bool) (w : Win) (p : Nat → Bool) : Bool :=
  p t.base && (t.runs dest w).all fun r => p r.1 && p (r.1 + r.2 - 1)

/-- An extent that holds an address of register space (R297). -/
def meetsRegs (rs : List (Nat × Nat)) : Bool :=
  let (lo, hi) := runsExtent rs
  let meets := fun (a n : Nat) => lo < a + n && a < hi
  meets fregBase (336 * fregSlot) || meets dregBase (20 * dregSlot) || meets hubBase hubSize

/-- Z indices are never clamped (R128, R289). -/
def TDesc.zOutside (t : TDesc) (z2 z3 : Nat) : Bool := t.dim 2 ≤ z2 || t.dim 3 ≤ z3

/-- A signed origin that is no multiple of 32. -/
def off32 (i : Int) : Bool := i % 32 ≠ 0

/-! ### Matmul (R128) -/

def mmAWin (d : List W64) : Win := planeWin (mmAX0 d) (mmAY0 d) (mmK d) (mmM d) (mmZ d 0) (mmZ d 1)
def mmWWin (d : List W64) : Win := planeWin (mmWX0 d) (mmWY0 d) (mmNW d) (mmK d) (mmZ d 2) (mmZ d 3)

def State.matmulCheck (s : State) (f : Nat) (d : List W64) : Status :=
  let aP := fld (wd d 1) 0 48
  let wP := fld (wd d 2) 0 48
  let a := s.tensorAt aP
  let w := s.tensorAt wP
  (commonChecks d [0x10] (mmReserved d)).andThen fun _ =>
  (firstFail [
    (mmArr d = 0 || (mmNogate d && mmSpec d), .unsupported),
    (mmM d = 0 || 1024 < mmM d || mmNW d = 0 || 128 < mmNW d || mmK d = 0 || 2 ^ 31 < mmK d
      || (mmArr d ≠ 3 && 512 < mmM d) || (mmArrays d).any (fun x => 512 < mmRow0 d + x.2.2), .bounds)]).andThen fun _ =>
  (s.tensorStatus (16 + f) aP ⟨Fmt.matrixRole true, false, fun _ => mmAWin d⟩).andThen fun _ =>
  (s.tensorStatus (16 + f) wP ⟨Fmt.matrixRole false, false, fun _ => mmWWin d⟩).andThen fun _ =>
  firstFail [
    ((mmPair a.format w.format).isNone || !a.blocked || !w.blocked
      || ((a.format.isMX || w.format.isMX) && (a.lineAxis ≠ 0 || w.lineAxis ≠ 1)), .unsupported),
    (!a.placed false (mmAWin d) (ownStore f) || !w.placed false (mmWWin d) (ownStore f)
      || a.zOutside (mmZ d 0) (mmZ d 1) || w.zOutside (mmZ d 2) (mmZ d 3), .bounds),
    ((a.format.isMX || w.format.isMX) && (off32 (mmAX0 d) || off32 (mmWY0 d)), .align),
    (mmSpec d && 65536 < mmK d, .bounds)]

/-! ### Chains (R147, R155, R156) -/

/-- The pointer of tensor k of a chain: IN0, IN1, IN2, OUT. -/
def chPtr (d : List W64) (k : Nat) : Nat := fld (wd d (2 + k)) 0 48

/-- Whether a chain writes a tensor: OUT, and IN2 with AUX_OUT = 1. -/
def chWrites (d : List W64) (k : Nat) : Bool := k = 3 || (k = 2 && chAuxOut d)

/-- The window of tensor k (R147); the row statistics take two columns. -/
def chWin (d : List W64) (z2 z3 k : Nat) : Win :=
  if chWrites d k then
    ⟨[chX0 d, chY0 d, 0, 0], [if k = 2 && chAuxSel d then 2 else chNX d, chNY d, z2, z3]⟩
  else ⟨[0, 0, 0, 0], [chNX d, chNY d, z2, z3]⟩

/-- R101 on one written tensor. -/
def TDesc.writeEdge (t : TDesc) (w : Win) : Bool :=
  let ax := t.axis
  let hi := w.o ax + w.e ax
  !(t.format.isMX || t.format.isCb4) || (!off32 (w.o ax) && (!off32 hi || hi = (t.dim ax : Int)))

/-- The status of the first tensor that is refused. -/
def firstBad : List Status → Status
  | [] => .ok
  | x :: xs => if x = .ok then firstBad xs else x

def State.chainCheck (s : State) (f : Nat) (d : List W64) : Status :=
  let lp := fld (wd d 1) 0 48
  let list := s.blockWords lp
  let sts := stagesOf list (chNstg d)
  let ts := fun k => s.tensorAt (chPtr d k)
  let ok := fun k => s.tensorReadable (16 + f) (chPtr d k)
  let dims := if ok 3 then ((ts 3).dim 2, (ts 3).dim 3) else (1, 1)
  let win := fun k => chWin d dims.1 dims.2 k
  let names := chainTensors d sts
  (commonChecks d [0x20] (chReserved d)).andThen fun _ =>
  (firstFail [
    (chNstg d = 0 || 8 < chNstg d || chNX d = 0 || 2 ^ 31 < chNX d || chNY d = 0 || 2 ^ 31 < chNY d
      || (chAuxOut d && !chAuxSel d && chNstg d ≤ chAuxStg d)
      || (chSrcAcc d && (128 < chNX d || 512 < chRow0 d + chNY d)), .bounds)]).andThen fun _ =>
  (s.ptrStatus (16 + f) lp).andThen fun _ =>
  (stageListCheck d list).andThen fun _ =>
  (if chainRules d sts ts ok then Status.ok else .unsupported).andThen fun _ =>
  (firstBad (names.map fun k =>
    s.tensorStatus (16 + f) (chPtr d k)
      ⟨if chWrites d k then Fmt.vecOutRole else Fmt.vecRole, chWrites d k, fun _ => win k⟩)).andThen fun _ =>
  firstFail [
    (sts.any fun t => t.op = opCBLK && t.fn ≠ 0 && !isCb4 d ts t.sa, .reservedNonzero),
    (names.any fun k => chWrites d k && !(ts k).writeEdge (win k), .align),
    ((names.any fun k => !(ts k).placed (chWrites d k) (win k) (ownStore f))
      || (chSrcAcc d && (1 < (ts 3).dim 2 || 1 < (ts 3).dim 3)) || (usesPrev sts && chY0 d ≤ 0), .bounds)]

/-! ### Streams (R286–R289, R297) -/

/-- The window of a stream's destination; with RING = 1 its rows wrap (R290). -/
def stDWin (d : List W64) (dst : TDesc) : Win :=
  planeWin (stDX0 d) (stDY0 d) (stNX d) (if stRing d then min (stNY d) (dst.dim 1) else stNY d) (stZ d 2) (stZ d 3)

/-- Stack memory, by either of its addresses. -/
def isStack (a : Nat) : Bool :=
  match place a with
  | .inter _ | .stackLocal .. => true
  | _ => false

/-- R288: both origins along the line axis, and the length; and R101 on the destination, but for the wrapped lines that R288
lets a ring write whole. -/
def stLines (d : List W64) (src dst : TDesc) : Bool :=
  let ax := src.axis
  let (so, dst0, n) := if ax = 1 then (stSY0 d, stDY0 d, stNY d) else (stSX0 d, stDX0 d, stNX d)
  let edge := if stRing d && ax = 1 then so + n = (src.dim 1 : Int) else (dst.dim ax : Int) ≤ dst0 + n
  !off32 so && !off32 dst0 && (n % 32 = 0 || edge)
    && ((stRing d && ax = 1) || dst.writeEdge (planeWin (stDX0 d) (stDY0 d) (stNX d) (stNY d) (stZ d 2) (stZ d 3)))

/-- Where the kinds place their tensors (R286). -/
def stPlaced (f : Nat) (d : List W64) (src dst : TDesc) : Bool :=
  let either := fun a => anyStore a || isInter a
  let at_ := fun (p q : Nat → Bool) => src.placed false (stWin d) p && dst.placed true (stDWin d dst) q
  match stKind d with
  | 0 => at_ isInter (ownStore f)
  | 1 => at_ (ownStore f) isInter
  | 2 => at_ either either
  | _ => src.placed false (stWin d) (fun a => ownStore f a || isInter a)

def State.streamCheck (s : State) (f : Nat) (gated : Bool) (d : List W64) : Status :=
  let sP := fld (wd d 1) 0 48
  let dP := fld (wd d 2) 0 48
  let src := s.tensorAt sP
  let dst := s.tensorAt dP
  let okS := s.tensorReadable (16 + f) sP
  let okD := s.tensorReadable (16 + f) dP
  let k := stKind d
  let dUse : TensorUse := ⟨Fmt.storeRole, true, stDWin d⟩
  (commonChecks d [0x30] (stReserved d)).andThen fun _ =>
  (firstFail [
    (3 < k
      || (okS && okD && (src.fmt ≠ dst.fmt || src.layout ≠ dst.layout || src.lineAxis ≠ dst.lineAxis))
      || (stEarly d && (!gated || (okS && !isStack src.base)))
      || (stSkip d && (k ≠ kLOAD || stRing d)) || (stRing d && k = kSTORE) || (stSendSig d && k ≠ kSEND),
      .unsupported),
    (stNX d = 0 || 2 ^ 31 < stNX d || stNY d = 0 || 2 ^ 31 < stNY d
      || (k = kSEND && (stRoute d = 0 || 6 < stRoute d)) || 319 < stRlfold d
      || (stRing d && (stPiece d % 32 ≠ 0 || stPiece d < 32 || 4064 < stPiece d || stDY0 d ≠ 0
        || (okD && (dst.dim 1 % stPiece d ≠ 0 || dst.dim 1 < 2 * stPiece d)))), .bounds)]).andThen fun _ =>
  (s.tensorStatus (16 + f) sP ⟨Fmt.storeRole, false, fun _ => stWin d⟩).andThen fun _ =>
  (if k = kSEND then
    (s.ptrStatus (16 + f) dP).andThen fun _ =>
      tensorCheck (s.blockWords dP) dUse (fun _ => .ok) s.groupView (s.ptrBlock (16 + f))
   else s.tensorStatus (16 + f) dP dUse).andThen fun _ =>
  firstFail [
    (!stLines d src dst || (stSkip d && (off32 (stSY0 d) || off32 (stDY0 d))), .align),
    (!stPlaced f d src dst || src.zOutside (stZ d 0) (stZ d 1) || dst.zOutside (stZ d 2) (stZ d 3)
      || meetsRegs (src.runs false (stWin d)) || meetsRegs (dst.runs true (stDWin d dst)), .bounds),
    (k = kSEND && !s.inSvc (stRoute d - 1), .linkDown)]

/-! ### Gather and scatter (R315) -/

/-- The table's columns over all its rows (R293). -/
def gsTWin (d : List W64) (t : TDesc) : Win := planeWin (gsTX0 d) 0 (gsNX d) (t.dim 1) 0 0
def gsIWin (d : List W64) : Win := planeWin (gsIX0 d) (gsIY0 d) (gsNIdx d) 1 0 0
def gsRWin (d : List W64) : Win := planeWin (gsRX0 d) (gsRY0 d) (gsNX d) (gsNIdx d) 0 0

/-- The checks of a gather or scatter (R315); R101 on the tensor it writes stands with the other ALIGN tests. -/
def State.gatherCheck (s : State) (f : Nat) (d : List W64) : Status :=
  let p := fun i => fld (wd d i) 0 48
  let t := s.tensorAt (p 1)
  let x := s.tensorAt (p 2)
  let r := s.tensorAt (p 3)
  let ok := fun i => s.tensorReadable (16 + f) (p i)
  let gather := hdrType d = 0x31
  let adds := !gather && gsOp d ≠ 0
  let flat := fun (u : TDesc) => u.rank ≤ 2 && u.axis = 0
  (commonChecks d [0x31, 0x32] (gsReserved d)).andThen fun _ =>
  (firstFail [
    (gsOp d = 3 || (gather && gsOp d ≠ 0) || (ok 2 && Fmt.ofCode x.fmt ≠ some .int32)
      || (ok 1 && !flat t) || (ok 3 && !flat r)
      || (!adds && ok 1 && ok 3 && (t.fmt ≠ r.fmt || t.layout ≠ r.layout || t.lineAxis ≠ r.lineAxis))
      || (adds && ((ok 1 && Fmt.ofCode t.fmt ≠ some .fp32)
        || (ok 3 && Fmt.ofCode r.fmt ≠ some .fp32 && Fmt.ofCode r.fmt ≠ some .bf16))), .unsupported),
    (gsNX d = 0 || 2 ^ 31 < gsNX d || gsNIdx d = 0, .bounds)]).andThen fun _ =>
  (s.tensorStatus (16 + f) (p 1) ⟨Fmt.storeRole, !gather, gsTWin d⟩).andThen fun _ =>
  (s.tensorStatus (16 + f) (p 2) ⟨Fmt.storeRole, false, fun _ => gsIWin d⟩).andThen fun _ =>
  (s.tensorStatus (16 + f) (p 3) ⟨Fmt.storeRole, gather, fun _ => gsRWin d⟩).andThen fun _ =>
  firstFail [
    (off32 (gsTX0 d) || off32 (gsRX0 d)
      || (gsNX d % 32 ≠ 0 && decide (gsRX0 d + gsNX d < (r.dim 0 : Int)))
      || !(if gather then r.writeEdge (gsRWin d) else t.writeEdge (gsTWin d t)), .align),
    (!t.placed (!gather) (gsTWin d t) isInter || !r.placed gather (gsRWin d) (ownStore f)
      || !x.placed false (gsIWin d) (fun a => isInter a || ownStore f a)
      || meetsRegs (t.runs (!gather) (gsTWin d t)) || meetsRegs (r.runs gather (gsRWin d))
      || (!gather && gsOp d = 2 && (s.w96Inst t.base).isNone), .bounds)]

/-! ### Transforms (R317–R321) -/

/-- PERM against R317; dimensions not below RANK stay in place. -/
def tfPermOk (d : List W64) (rank : Option Nat) : Bool :=
  (List.range 4).all fun k => (List.range 4).any (fun j => tfPerm d j = k)
    && (match rank with
        | some r => k < r || tfPerm d k = k
        | none => true)

/-- The in-place square transpose that R319 allows. -/
def State.tfInPlace (s : State) (d : List W64) : Bool :=
  let a := fld (wd d 1) 0 48
  let b := fld (wd d 2) 0 48
  let x := s.blockWords a
  let y := s.blockWords b
  let t := TDesc.ofWords x
  let same := setFld (wd x 0) 32 32 0 = setFld (wd y 0) 32 32 0 && x.drop 1 = y.drop 1
  (a = b || same) && t.blocked && t.dim 0 = t.dim 1
    && (List.range 4).all fun k => tfPerm d k = [1, 0, 2, 3].getD k 0

/-- Two byte extents meet. -/
def extentsMeet (a b : List (Nat × Nat)) : Bool :=
  let x := runsExtent a
  let y := runsExtent b
  x.1 < y.2 && y.1 < x.2

def State.transformCheck (s : State) (f : Nat) (d : List W64) : Status :=
  let sP := fld (wd d 1) 0 48
  let dP := fld (wd d 2) 0 48
  let src := s.tensorAt sP
  let dst := s.tensorAt dP
  let sr := src.runs false src.whole
  let dr := dst.runs true dst.whole
  (commonChecks d [0x38] (tfReserved d)).andThen fun _ =>
  (firstFail [
    (tfRnd d = 2 || !tfPermOk d (if s.tensorReadable (16 + f) sP then some src.rank else none), .unsupported)]).andThen
      fun _ =>
  (s.tensorStatus (16 + f) sP ⟨Fmt.baseRole, false, TDesc.whole⟩).andThen fun _ =>
  (s.tensorStatus (16 + f) dP ⟨Fmt.baseRole, true, TDesc.whole⟩).andThen fun _ =>
  firstFail [
    (src.rank ≠ dst.rank || (List.range 4).any (fun k => dst.dim k ≠ src.dim (tfPerm d k))
      || !src.placed false src.whole isInter || !dst.placed true dst.whole isInter
      || meetsRegs sr || meetsRegs dr, .bounds),
    (extentsMeet sr dr && !s.tfInPlace d, .overlap)]

end Sys2Proof.Machine
end

