-- ==== Sys2Proof/Machine/IssueCmds.lean ====
section
/-!
DEFINITION. Sys2Proof/Machine/IssueCmds.lean: how an ISSUE ends: the target queue accepts or refuses the descriptor (R86,
R219–R224).
-/
namespace Sys2Proof.Machine

/-- The check of a descriptor by the engine that TGT names. A gated HUB issue is refused before its descriptor is read
(log entry 55). -/
def State.issueCheck (s : State) (f c tgt : Nat) (gated : Bool) (addr : Nat) (d : List W64) : Status :=
  let lfold := (s.logicalOf f).getD 0
  if 3 ≤ tgt && gated then .unsupported
  else (s.ptrStatus (coreAgent f c) addr).andThen fun _ =>
    match tgt with
    | 0 => s.matmulCheck f d
    | 1 => s.chainCheck f d
    | 2 =>
      if hdrType d = 0x31 || hdrType d = 0x32 then s.gatherCheck f d
      else if hdrType d = 0x38 then s.transformCheck f d
      else s.streamCheck f gated d
    | _ =>
      if hdrType d = 0x58 then
        (commonChecks d [0x58] (progReserved d)).andThen fun _ => s.progCheck d lfold
      else (commonChecks d [0x51] (readyReserved d)).andThen fun _ => s.readyCheck d lfold

/-- The blocks a descriptor names, in the order in which the engine keeps them; none stands for a block not named. -/
def State.issuePtrs (s : State) (tgt : Nat) (d : List W64) : List (Option Nat) :=
  let p := fun i => some (fld (wd d i) 0 48)
  match tgt with
  | 0 => [p 1, p 2]
  | 1 =>
    let names := chainTensors d (stagesOf (s.blockWords (fld (wd d 1) 0 48)) (chNstg d))
    p 1 :: (List.range 4).map fun k => if names.contains k then some (chPtr d k) else none
  | 2 => if hdrType d = 0x31 || hdrType d = 0x32 then [p 1, p 2, p 3] else [p 1, p 2]
  | _ => []

/-- A descriptor and the blocks it names. -/
def State.issueBlocks (s : State) (addr : Nat) (ptrs : List (Option Nat)) : List (Nat × Nat) :=
  let ps := ptrs.filterMap id
  let shards := ps.filterMap fun p =>
    let t := s.tensorAt p
    if hdrType (s.blockWords p) = 1 && t.sharded then some t.shardPtr else none
  (addr :: (ps ++ shards)).map fun a => (a, 64)

/-- The ticket the next accepted descriptor of a queue takes (R219). -/
def State.nextTicket (s : State) (f c tgt : Nat) : Nat :=
  match tgt with
  | 0 => (s.fold f).tkMxa
  | 1 => (s.core f c).tickets
  | 2 => (s.fold f).tkStr
  | _ => (s.fold f).tkHub

def State.takeTicket (s : State) (f c tgt : Nat) : State :=
  let n := (s.nextTicket f c tgt + 1) % 2 ^ 32
  match tgt with
  | 0 => s.updFold f fun v => { v with tkMxa := n }
  | 1 => s.updCore f c fun x => { x with tickets := n }
  | 2 => s.updFold f fun v => { v with tkStr := n }
  | _ => s.updFold f fun v => { v with tkHub := n }

/-- Put an accepted descriptor into its queue; at the head of an empty queue a gated one begins to wait on its slot
(R223, R227). A hub descriptor takes effect at once. -/
def State.enqueue (s : State) (f c tgt : Nat) (e : Issued) : State :=
  let lfold := (s.logicalOf f).getD 0
  match tgt with
  | 0 => (s.updFold f fun v => { v with matQ := v.matQ ++ [e] }).gateMxa f
  | 1 => (s.updCore f c fun x => { x with chainQ := x.chainQ ++ [e] }).gateVec f c
  | 2 => (s.updFold f fun v => { v with strQ := v.strQ ++ [e] }).gateStr f
  | _ =>
    if hdrType e.words = 0x58 then s.progAccept e.words lfold else s.readyAccept e.words lfold

/-- Record a rejection (R224, R243). -/
def State.noteReject (s : State) (f c th tgt addr : Nat) (st : Status) : State :=
  (s.foldRegs f fun r =>
    if fld r.issueErr 0 8 = 0 then
      { r with issueErr := put 0 8 st.code ||| put 8 3 c ||| put 11 3 th ||| put 14 2 tgt ||| put 16 48 addr }
    else r).fire (foldDie f) 2 (coreAgent f c)

/-- ISSUE_DONE: in order of arrival (R221), once the queue has room and the descriptor is checked, rd takes the status and
the ticket and the thread goes on. A rejected descriptor changes nothing else (R9): an uncorrectable unit is consumed only under the blocks of an
accepted one. A PROGRESS whose entry must wait for room in the tally waits with it (R447). -/
def opIssueDone (s : State) (t : Tid) : State :=
  let f := t.fold.val
  let c := t.core.val
  let th := t.thr.val
  match (s.th t).wait with
  | .issue addr efld rd =>
    let w : W32 := BitVec.ofNat 32 efld
    let tgt := iTgt w
    let d := s.blockWords addr
    let st := s.issueCheck f c tgt (iG w) addr d
    let ptrs := s.issuePtrs tgt d
    if !(s.fold f).clocked || s.queueFull f c tgt || !s.issueTurn f c th
      || (tgt = 3 && hdrType d = 0x58 && st = .ok && s.tallyWaits && s.progNeedsEntry d ((s.logicalOf f).getD 0)) then s
    else
      let ticket := if st = .ok then s.nextTicket f c tgt else 0
      let blocks := if st = .ok then s.issueBlocks addr ptrs else []
      let ue := s.ueRuns blocks
      let regs := (s.core f c).regs
      let e : Issued := { core := c, thr := th, addr := addr, words := d,
                          subs := ptrs.map fun p => match p with
                            | some a => s.capture a
                            | none => [],
                          gate := if iG w then some (iGslot w) else none, ticket := ticket,
                          srStep := regs.srStep, srMb := regs.srMb }
      let s := ((s.correctRuns blocks).putReg f c th rd (issueResult st tgt ticket)).issueRec
        t tgt st ticket (hdrTag d) (addr % 2 ^ 48)
      let s := (s.updFold f fun v => { v with arrived := v.arrived.filter fun x => x.2 ≠ (c, th) }).wake f c th
      let s := if st = .ok then (s.takeTicket f c tgt).enqueue f c tgt e else s.noteReject f c th tgt addr st
      match ue with
      | some u => s.consumeUE (coreAgent f c) u
      | none => s
  | _ => s

def execIssueDone (t : Tid) (s : State) : Host.Outcome State Fault Refusal := done (opIssueDone s t)

end Sys2Proof.Machine
end

