-- ==== Sys2Proof/Machine/LoadCmds.lean ====
section
/-!
DEFINITION. Sys2Proof/Machine/LoadCmds.lean: CONFIGURE (R649), LOAD (R652, R653), START (R654, R430–R437, R468, R471), PAUSE
and RESUME (R499, R500), UNLOAD (R643, R654) and staged changes (R655–R660).
-/
namespace Sys2Proof.Machine

/-- A block that a host command names: aligned, in the interleaved range (log entry 47). -/
def blockStatus (a len : Nat) : Status := firstFail [(a % 64 ≠ 0, .align), (interTop < a + len, .bounds)]

/-- The command processor reads a block: errors in it are met as by any consumer (R267, R269). -/
def State.procRead (s : State) (a n : Nat) : State :=
  if interTop < a + n then s
  else
    let s := s.corrected a n
    match s.ueIn a n with
    | some u => s.consumeUE 0 u
    | none => s

/-! ### CONFIGURE -/

def overrideCheck (w : List W64) : Status :=
  let b := wd w 1
  (commonChecks w [0x87] (fld (wd w 0) 12 20 ≠ 0 || fld b 3 9 ≠ 0 || fld b 24 8 ≠ 0 || fld b 52 12 ≠ 0
    || (List.range 6).any fun i => wd w (2 + i) ≠ 0)).andThen fun _ =>
  firstFail [
    ((bit b 0 && (fld b 12 12 < 2000 || 3800 < fld b 12 12))
      || (bit b 1 && (fld b 32 16 < 38000 || 42000 < fld b 32 16))
      || (bit b 2 && 5 < fld b 48 4 && fld b 48 4 ≠ 0xF), .bounds)]

/-- The settings with an override block on them; no words: no block. -/
def State.configured (s : State) (w : List W64) : State :=
  let b := wd w 1
  let st := s.cfg.settings
  s.applySettings (if bit b 0 then fld b 12 12 else setCap st) (if bit b 1 then fld b 32 16 else setSetpoint st)
    (if bit b 2 then (if fld b 48 4 = 0xF then none else some (fld b 48 4)) else setAux st)

def opConfigure (s : State) : State :=
  match s.cmdOf 0x02 with
  | none => s
  | some c =>
    let a := (wd c.words 2).toNat
    let w := if a = 0 then [] else s.imgWords a 8
    let st := if a = 0 then Status.ok else (blockStatus a 64).andThen fun _ => overrideCheck w
    let s := if a = 0 || blockStatus a 64 ≠ .ok then s else s.procRead a 64
    if st ≠ .ok then s.complete c st []
    else ((s.configured w).setHost .configured true).complete c .ok [archId]

/-! ### LOAD -/

def opLoadImage (s : State) (signed : Bool) : State :=
  match s.cmdOf 0x03 with
  | none => s
  | some c =>
    if c.started then s
    else
      let a := (wd c.words 2).toNat
      let size := (wd c.words 3).toNat
      let (st, j, pages) := s.loadCheck a size signed
      let s := s.procRead a size
      if st ≠ .ok then s.complete c st []
      else { s.updCmd c fun d => { d with started := true } with cfg := { s.cfg with loading := some (j, pages) } }

/-- Write +0 to every page kept secure, and clear RES_KEPT.VALID (R643, R479). -/
def State.dropKept (s : State) : State :=
  let ks := if bit s.res.regs.kept 48 then s.keptPages else []
  let in_ := fun (a : Nat) => a < interTop && ks.contains (a / 0x200000)
  { s with mem := s.mem.filter fun c => !in_ c.1, ue := s.ue.filter fun u => !in_ u.addr,
           cfg := { s.cfg with keptS := [] } }.modRegs fun r => { r with kept := setFld r.kept 48 1 0 }

/-- What the resilience engine holds without a job (log entry 48). -/
def Res.jobless (r : Res) : Res :=
  { regs := { cnt := r.regs.cnt, fault := r.regs.fault, stsBits := r.regs.stsBits &&& stsNOSPARE,
              kept := r.regs.kept, keptJob := r.regs.keptJob },
    failedF := r.failedF, spares := r.spares, rebuild := r.rebuild, rebuildQ := r.rebuildQ }

/-- Effective classes as LOAD finds them, and UNPROTECTED (R421). -/
def State.loadClasses (s : State) : State :=
  (s.reclass false).markUnprotected

/-- Install a job that has passed (R653). -/
def State.installJob (s : State) (j : Job) (pages : SMap Nat) : State :=
  let keep := bit s.res.regs.kept 48 && s.res.regs.keptJob = wd j.hdr 1
  let s := if keep then s else s.dropKept
  let j := { j with digest := s.free }
  let s := { s with free := s.free + 1, res := s.res.jobless }.withJob j pages
  let small := fld (wd j.hdr 4) 32 32
  let s := { s with col := { s.col with insts := [], small := if small = 0 then 1048576 else small } }
  let s := (List.range 336).foldl (fun s f => s.updFold f fun v => { v with fcSize := s.jobFc f }) s
  let s := (List.range 6).foldl (fun s p =>
    s.updPort p fun x => { x with regs := { x.regs with vcCfg := (j.ports.getD p (0, 0)).2 } }) s
  s.setRoles.loadClasses

def opLoadDone (s : State) : State :=
  match s.cmdOf 0x03, s.cfg.loading with
  | some c, some (j, pages) =>
    let s := { s with cfg := { s.cfg with loading := none } }.installJob j pages
    (s.setHost .loaded true).complete c .ok [wd j.hdr 1, BitVec.ofNat 64 (fld (wd j.hdr 3) 0 48)]
  | _, _ => s

/-! ### START -/

def startMode (c : Cmd) : Nat := fld (wd c.words 2) 0 2

def State.startCheck (s : State) (mode : Nat) : Status :=
  firstFail [
    (!s.paired, .notReady),
    (s.sharedFeed && !s.hasStripe && !(resAccept s.resHdr), .feedShared),
    (mode = 3, .unsupported),
    (mode = 2 && !s.keptJob, .bounds)]

/-- A START in force on a shared feed: RES_STS and the status it completes with (R436, R437). -/
def State.feedBits (s : State) : State :=
  (s.resBits stsFEED s.sharedFeed).resBits stsOVERRIDE (s.sharedFeed && !s.hasStripe)
def State.startStatus (s : State) : Status := if s.sharedFeed then .feedShared else .ok

/-- The FEED entry of a START on a shared feed, without its number. -/
def State.feedEntry (s : State) : List W64 :=
  [put 0 8 0x60 ||| put 8 4 1 ||| put 16 48 s.nextStep, 0, 0, 0, BitVec.ofNat 64 s.feedGrp, BitVec.ofNat 64 s.res.pair.feed,
    if s.hasStripe then 0 else 1]
def State.feedTally (s : State) : State := if s.sharedFeed then s.tallyW s.feedEntry else s

/-- Clear RES_KEPT.VALID without a write to memory (R479). -/
def State.clearKept (s : State) : State := s.modRegs fun r => { r with kept := setFld r.kept 48 1 0 }

/-- The registers and the work of a job that begins at its first step. -/
def State.freshRes (s : State) : State :=
  s.modRes fun r => { r with
    tainted := false, stopped := false, stopFwd := false, stopElse := false, fillEnd := false,
    regs := { r.regs with commitDev := 0, commitGlb := 0, snap := 0, tally := 0 } }

/-- The first mirror fill; after kept state, pairing is repeated first (R432, R471). -/
def State.startFill (s : State) (again : Bool) : State :=
  if !s.hasPartner then s
  else if again then
    let mine := (List.range s.prots.length).filter fun i => mirrored (s.cls i)
    (s.startPairing).updPair fun x => { x with fillOut := true, fillIn := true, fillMine := mine }
  else s.firstFill

/-- MODE = FRESH. -/
def State.startFresh (s : State) : State :=
  let again := s.keptJob
  let f := s.firstStep
  let s := s.clearKept.freshRes.clearMaps.feedBits.writeClasses
  let s := s.tally 0x01 f 0 0 0 0 (s.jobWord 1) (s.jobWord 2) (BitVec.ofNat 64 f)
  let s := (s.feedTally.startFill again).beginFolds f
  (s.setHost .running true).permits f

/-- MODE = REPLACE: the device fills itself (R468). The tally comes with the fill, and the FEED entry after it; what the
partner has sent since pairing counts. -/
def State.startReplace (s : State) : State :=
  let filled := s.res.fillEnd
  let s := s.clearKept.freshRes.feedBits.writeClasses
  let entry := if s.sharedFeed then [s.feedEntry] else []
  let s := s.modRes fun r => { r with
    stopped := true, filling := true, fillEnd := filled || !s.hasPartner, pending := entry,
    rollNeed := r.classes.any (fun c => c = clsS || (!s.hasPartner && c ≠ clsN)) }
  let s := if filled then s.readTally.unblockTally else s
  s.setHost .recovering true

/-- MODE = RETAIN: the device rejoins from its own kept state (R471). -/
def State.startRetain (s : State) : State :=
  let s := s.modRes fun r => { r with
    tainted := false,
    classes := (List.range s.prots.length).map fun i => (s.byteAt (s.poolBase + 0x400000 + i)).toNat }
  let s := (s.readTally.feedBits.setHost .recovering true).feedTally
  if s.res.stopped then s
    else
      let s := s.tally 0x50 s.nextStep 2 0 0 Status.notReady.code 0 0 0
      let s := (s.resFault 2 Status.notReady.code).floodStop Status.notReady.code 2 none
      s.modRes fun r => { r with
        stopped := true, owedStop := (List.range 6).filter fun p => s.jobPort p && !s.inSvc p }

def opStart (s : State) : State :=
  match s.cmdOf 0x04 with
  | none => s
  | some c =>
    let mode := startMode c
    match s.startCheck mode with
    | .ok =>
      let st := s.startStatus
      let step := if mode = 0 then s.firstStep else 0
      let s := if mode = 0 then s.startFresh else if mode = 1 then s.startReplace else s.startRetain
      let s := s.complete c st [BitVec.ofNat 64 step]
      if mode = 0 then s else s.tryResume
    | e => s.complete c e []

/-! ### PAUSE, RESUME, UNLOAD -/

def opPause (s : State) : State :=
  match s.cmdOf 0x05 with
  | none => s
  | some c =>
    if c.started then s
    else if fld (wd c.words 2) 0 48 ≤ s.glbStep then s.complete c .bounds []
    else s.updCmd c fun d => { d with started := true }

def opResume (s : State) : State :=
  match s.cmdOf 0x06 with
  | none => s
  | some c => if c.started then s else (s.updCmd c fun d => { d with started := true }).tryResume

/-- Every agent number of a fold or core. -/
def allFoldAgents : List Nat := (List.range 336).flatMap foldAgents

/-- The job leaves the device (R654). -/
def State.dropJob (s : State) : State :=
  let s := (s.releaseAgents allFoldAgents).dropKept
  let s := { s with
    job := none, res := s.res.jobless, col := { s.col with insts := [] },
    cfg := { s.cfg with pages := none },
    ports := SMap.remap {} s.ports fun _ (x : Port) => { x with regs := { x.regs with vcCfg := vcCfgReset } } }
  (List.range 6).foldl (fun s p => s.rehandshake p) s.resetFolds

def opUnload (s : State) : State :=
  match s.cmdOf 0x07 with
  | none => s
  | some c => ((s.dropJob.setHost .configured true).stageEnd .notInState [0, 0]).complete c .ok []

/-! ### STAGE (R656–R659) -/

/-- The words of a change block's item i. -/
def State.stageItem (s : State) (a i : Nat) : W64 × W64 := (s.imgWord (a + 64 + 16 * i), s.imgWord (a + 72 + 16 * i))

def stageCodes : List Nat := [0x01, 0x02, 0x03, 0x04, 0x10, 0x11, 0x12]
def drainCode (c : Nat) : Bool := 0x10 ≤ c

/-- Reserved bits of an item; a code that the table does not list is judged later. -/
def itemReserved (it : W64 × W64) : Bool :=
  let w := it.2
  fld it.1 8 8 ≠ 0 || match itemCode it with
  | 0x01 => fld it.1 35 29 ≠ 0 || fld w 8 24 ≠ 0 || fld w 51 13 ≠ 0
  | 0x02 => fld w 3 61 ≠ 0
  | 0x03 => itemArg it ≠ 0 || fld w 32 32 ≠ 0
  | 0x04 => fld w 32 32 ≠ 0
  | 0x10 => fld w 3 61 ≠ 0
  | 0x11 => fld w 42 6 ≠ 0 || fld w 60 4 ≠ 0
  | 0x12 => fld w 13 3 ≠ 0 || fld w 22 42 ≠ 0
  | _ => false

/-- The item's own fields, as LOAD judges them. -/
def State.itemCheck (s : State) (it : W64 × W64) : Status :=
  let i := itemArg it
  let w := it.2
  let have_ := s.job.isSome
  match itemCode it with
  | 0x01 =>
    let n := fld w 32 19
    let fixed := (List.range n).any fun k => s.fixedPage (i + k)
    firstFail [(491520 < i + n, .bounds), (fixed && fld w 0 16 &&& pgS = 0, .deniedSecure),
      (fixed && fld w 0 16 &&& pgV = 0, .bounds)]
  | 0x02 => firstFail [(s.prots.length ≤ i, .bounds), (4 < fld w 0 3, .unsupported)]
  | 0x04 => if (s.planWords i).isNone then .bounds else .ok
  | 0x10 => if !have_ || 320 ≤ i || 4 < fld w 0 3 then .bounds else .ok
  | 0x11 =>
    if !have_ || 6 ≤ i || fld w 0 14 + fld w 14 14 + fld w 28 14 ≠ 16128
      || (List.range 3).any (fun k => fld w (14 * k) 14 < 257 || fld w (48 + 4 * k) 4 = 0) then .bounds else .ok
  | 0x12 => if !have_ || i < 16 || 64 ≤ i then .bounds else mbxCheck w
  | _ => .ok

/-- The configuration an item would produce, as far as other parts of the job depend on it. -/
def State.trialItem (s : State) (it : W64 × W64) : State :=
  let i := itemArg it
  match itemCode it with
  | 0x01 => s.setPages i (fld it.2 32 19) (fld it.2 0 16)
  | 0x02 => s.modJob fun j => { j with
      prot := j.prot.set i (match j.prot[i]? with
        | some e => e.set 0 (setFld (wd e 0) 12 3 (fld it.2 0 3))
        | none => []) }
  | _ => s

/-- Whether the job still passes where its pages and classes matter. -/
def State.trialCheck (s : State) : Status :=
  match s.job with
  | none => .ok
  | some j =>
    (firstFail [(j.folds.any fun e => s.pageEntry (fld (wd e 0) 0 48 / 0x200000) &&& pgX = 0, .bounds)]).andThen fun _ =>
    (((List.range j.plans.length).map s.planCheck).find? (· ≠ .ok)).getD .ok |>.andThen fun _ =>
    (((List.range s.prots.length).map s.protCheck).find? (· ≠ .ok)).getD .ok |>.andThen fun _ => s.resilLast

/-- The checks of R657. R656 and R657 give a block with NITEM outside 1–1,024, or with items past the interleaved range, no
status and no place: it is BOUNDS here, after the block's own RESERVED_NONZERO and before its items' (DESIGN CHOICE, log
entry 83). -/
def State.stageCheck (s : State) (a : Nat) : Status :=
  let h := s.imgWords a 8
  let n := fld (wd h 1) 0 11
  let items := (List.range n).map (s.stageItem a)
  (blockStatus a 64).andThen fun _ =>
  (commonChecks h [0x89] (fld (wd h 0) 12 20 ≠ 0 || fld (wd h 1) 11 53 ≠ 0
    || (List.range 6).any fun i => wd h (2 + i) ≠ 0)).andThen fun _ =>
  (firstFail [(n = 0 || 1024 < n || interTop < a + 64 + 16 * n, .bounds)]).andThen fun _ =>
  (firstFail [
    (items.any itemReserved, .reservedNonzero),
    ((items.any fun it => !stageCodes.contains (itemCode it))
      || (items.any (fun it => drainCode (itemCode it)) && items.any fun it => !drainCode (itemCode it)), .unsupported),
    (items.any (fun it => drainCode (itemCode it)) && s.running, .notInState),
    (s.cfg.staged.isSome, .busy)]).andThen fun _ =>
  ((items.map s.itemCheck).find? (· ≠ .ok)).getD .ok |>.andThen fun _ =>
    (items.foldl (fun s it => s.trialItem it) s).trialCheck

/-- STAGE acts on the oldest accepted STAGE that is not yet under way. -/
def opStage (s : State) : State :=
  match s.host.queue.find? fun c => c.op = 0x08 && !c.started with
  | none => s
  | some c =>
    let a := (wd c.words 2).toNat
    let st := s.stageCheck a
    let words := fun (i : Nat) => s.imgWord (a + 8 * i)
    let items := (List.range (fld (words 1) 0 11)).map (s.stageItem a)
    let tag := fld (words 0) 32 32
    let s := if blockStatus a 64 = .ok then s.procRead a (64 + 16 * items.length) else s
    match st with
    | .ok =>
      let s := s.updCmd c fun d => { d with started := true }
      { s with cfg := { s.cfg with
        stageSt := 2,
        staged := some { cmd := { c with started := true }, items := items, tag := tag,
                         target := if s.job.isSome then s.nextStep else 0 } } }.stagePrepare
    | e => s.complete c e (if blockStatus a 64 = .ok then [0, 0, put 0 32 tag] else [])

/-- STAGE_ANSWER: 0 UNABLE, 1 PREPARED, 2 REFUSED; an island that R658 makes UNABLE has not prepared,
whatever the row says. After a stop, prepare repeats only once the job runs again. The hub, as holder of the partner's copies, refuses with BOUNDS a class change whose copies have no room (R431; log entry 39). -/
def opStageAnswer (s : State) (island answer status : Nat) : State :=
  match s.cfg.staged with
  | none => s
  | some g =>
    let partner := island = 4 && g.items.any s.itemPaired
    if s.host.st = .recovering || !(partner || (g.islands s).contains island) then s
    else if answer = 2 then s.stageEnd (Status.ofCode status) [0, BitVec.ofNat 64 island]
    else if answer = 1 && island = 0x3FF && !s.holderRoom g.items then s.stageEnd .bounds [0, BitVec.ofNat 64 island]
    else if answer = 0 || s.islandUnable island then s
    else
      let g := if partner then { g with partner := true }
        else { g with answers := if g.answers.contains (island, 1) then g.answers else g.answers ++ [(island, 1)] }
      let s := { s with cfg := { s.cfg with staged := some g } }
      if s.stageReady g && !s.running then s.stageApply s.glbStep else s.stagePeer

/-- CONFIGURE (R649). -/
def execConfigure (s : State) : Host.Outcome State Fault Refusal := done (opConfigure s)

/-- LOAD (R652). -/
def execLoad (signed : Bool) (s : State) : Host.Outcome State Fault Refusal := done (opLoadImage s signed)

/-- LOAD_DONE (R653). -/
def execLoadDone (s : State) : Host.Outcome State Fault Refusal := done (opLoadDone s)

/-- START (R654). -/
def execStart (s : State) : Host.Outcome State Fault Refusal := done (opStart s)

/-- PAUSE (R499). -/
def execPause (s : State) : Host.Outcome State Fault Refusal := done (opPause s)

/-- RESUME (R500). -/
def execResume (s : State) : Host.Outcome State Fault Refusal := done (opResume s)

/-- UNLOAD (R654). -/
def execUnload (s : State) : Host.Outcome State Fault Refusal := done (opUnload s)

/-- STAGE (R657). -/
def execStage (s : State) : Host.Outcome State Fault Refusal := done (opStage s)

/-- STAGE_ANSWER (R658, R659). -/
def execStageAnswer (island : Nat) (answer : Fin 3) (status : Nat) (s : State) : Host.Outcome State Fault Refusal :=
  done (opStageAnswer s island answer.val status)

end Sys2Proof.Machine
end

