-- ==== Sys2Proof/Machine/MatrixCmds.lean ====
section
/-!
DEFINITION. Sys2Proof/Machine/MatrixCmds.lean: the commands of the matrix engine.
-/
namespace Sys2Proof.Machine

/-- MATMUL_START (R120, R131, R134, R223). -/
def execMatmulStart (f : FoldNo) (s : State) : Host.Outcome State Fault Refusal := done (opMatmulStart s f.val)

/-- MATMUL_COMPLETE (R120, R127, R130, R135, R144). -/
def execMatmulComplete (f : FoldNo) (s : State) : Host.Outcome State Fault Refusal :=
  done (opMatmulComplete s f.val)

end Sys2Proof.Machine
end

