-- ==== Sys2Proof/Machine/MemCmds.lean ====
section
/-!
DEFINITION. Sys2Proof/Machine/MemCmds.lean: scrubbing and spare-row repair (R272–R276).
-/
namespace Sys2Proof.Machine

/-- Units of a stack. -/
def stackUnits : Nat := localSize / 64

/-- The units below a bound in which a scrub met errors of one kind. -/
def named (corr : Bool) (bound : Nat) (es : List UnitErr) : List Nat :=
  (es.filter fun e => e.corr = corr && e.unit < bound).map (·.unit)

/-- A scrub of a stack ends (R272): it has met the errors that the stack held and those that `met` adds. Correctable
ones are written back corrected; uncorrectable ones are logged, taint nothing and are reported. The errors of `late` come
after the scrub has read their units, for the next reader to find (log entry 91). -/
def opStackScrub (s : State) (d : Nat) (met late : List UnitErr) : State :=
  if !s.hubOn then s
  else
    let addr := fun (u : Nat) => interOf d (64 * u)
    let here := fun (e : MemErr) => match place e.addr with
      | .inter a => (stackOf a).1 = d
      | _ => false
    let unit := fun (e : MemErr) => (stackOf e.addr).2 / 64
    let ue := (((s.ue.filter fun e => here e && !e.corr).map unit) ++ named false stackUnits met).eraseDups
    let ce := (((s.ue.filter fun e => here e && e.corr).map unit) ++ named true stackUnits met).eraseDups.filter
      fun u => !ue.contains u
    let s := ce.foldl (fun s u => { s with ue := s.ue.filter (·.addr ≠ addr u) }.dieCE d u) s
    let s := ue.foldl (fun s u =>
      (if s.badAt (addr u) then s else s.putErr ⟨addr u, false, false⟩).logUE 0 (addr u) 2) s
    let s := late.foldl (fun s e =>
      if stackUnits ≤ e.unit || s.badAt (addr e.unit) then s else s.putErr ⟨addr e.unit, e.corr, false⟩) s
    if ue.isEmpty then s else { s with due := s.due ++ [Due.damage] }

/-- A scrub of a fold store ends (R272), word by word. An error in the fold cache's range only costs a line its copy
(R268). -/
def opFoldScrub (s : State) (f : Nat) (met : List UnitErr) (late : List FoldErr) : State :=
  if !s.hubOn || !(s.fold f).clocked then s
  else
    let words := foldSize / 8
    let addr := fun (u : Nat) => foldBase + foldSlot * f + 8 * u
    let cached := fun (u : Nat) => decide (foldSize - s.fcBytes f ≤ 8 * u)
    let here := fun (e : MemErr) => decide (addr 0 ≤ e.addr) && decide (e.addr < addr words)
    let word := fun (e : MemErr) => (e.addr - addr 0) / 8
    let ue := (((s.ue.filter fun e => here e && !e.corr).map word) ++ named false words met).eraseDups
    let ce := (((s.ue.filter fun e => here e && e.corr).map word) ++ named true words met).eraseDups.filter
      fun u => !ue.contains u
    let s := { s with ue := s.ue.filter fun e => !(here e && e.corr) }.foldRegs f fun r =>
      { r with memErr := bumpFld r.memErr 32 16 ce.length }
    let s := ue.foldl (fun s u =>
      if cached u then
        { s with ue := s.ue.filter (·.addr ≠ addr u) }.updFold f fun v => { v with
          fc := v.fc.filter (·.addr ≠ Config.fcLineAt f (8 * u)),
          regs := { v.regs with memErr := bumpFld v.regs.memErr 16 16 1 } }
      else (if s.badAt (addr u) then s else s.putErr ⟨addr u, false, false⟩).logUE 0 (addr u) 2) s
    late.foldl (fun s e => match e with
      | .word u corr => if words ≤ u || cached u || s.badAt (addr u) then s else s.putErr ⟨addr u, corr, false⟩
      | .line k line => s.parity f k line) s

/-- The spare rows of a bank that are in use, of its 16. -/
def Die.spareUsed (v : Die) (bank : Nat) : Nat := SMap.get 0 v.used bank

/-- A row with correctable errors in three distinct units moves to a spare row of its bank (R273, R274, R276). -/
def opRowRepair (s : State) (d row : Nat) : State :=
  let v := s.die d
  let bank := Config.dramBank d row
  if !s.hubOn || (SMap.get [] v.rowErrs row).length < 3 then s
  else if 16 ≤ v.spareUsed bank then s.setDie d { v with exhaust := true }
  else
    let s := s.setDie d { v with
      soft := satAdd 16 v.soft 1, used := SMap.upd 0 v.used bank (· + 1), remapped := insNat v.remapped row,
      rowErrs := SMap.drop v.rowErrs row }
    (List.range 16).foldl (fun s i =>
      let u := 16 * row + i
      if s.badAt (interOf d (64 * u)) then s.logUE 0 (interOf d (64 * u)) 3 else s) s

/-- STACK_SCRUB (R272). -/
def execStackScrub (d : Fin 20) (met late : List UnitErr) (s : State) :
    Host.Outcome State Fault Refusal :=
  done (opStackScrub s d.val met late)

/-- FOLD_SCRUB (R272). -/
def execFoldScrub (f : FoldNo) (met : List UnitErr) (late : List FoldErr) (s : State) :
    Host.Outcome State Fault Refusal :=
  done (opFoldScrub s f.val met late)

/-- ROW_REPAIR (R273–R276). -/
def execRowRepair (d : Fin 20) (row : Nat) (s : State) : Host.Outcome State Fault Refusal :=
  done (opRowRepair s d.val row)

end Sys2Proof.Machine
end

