-- ==== Sys2Proof/Machine/PowerCmds.lean ====
section
/-!
DEFINITION. Sys2Proof/Machine/PowerCmds.lean: the commands of chapters 14 and 18.
-/
namespace Sys2Proof.Machine

/-- SUPPLY_SAMPLE (R535, R536). Beyond R672 the machine stops. -/
def execSupplySample (mv : Int) (watts : Nat) (s : State) : Host.Outcome State Fault Refusal :=
  if 60000 < mv || mv < -500 then .fault .beyondAbsoluteMaximum else done (opSample s mv watts)

/-- SUPPLY_LEVEL_CLEAR (R536). -/
def execSupplyLevelClear (s : State) : Host.Outcome State Fault Refusal := done (opLevelClear s)

/-- ORDERLY_STOP_DEADLINE (R539). -/
def execOrderlyStopDeadline (s : State) : Host.Outcome State Fault Refusal := done (opStopDeadline s)

/-- BROWN_OUT (R540). -/
def execBrownOut (s : State) : Host.Outcome State Fault Refusal := done (s.lost 1)

/-- POWER_STAGE (R534, R540). -/
def execPowerStage (_m : Fin 4) (s : State) : Host.Outcome State Fault Refusal := done (s.lost 4)

/-- POWER_UP (R676). -/
def execPowerUp (sa : Fin 4) (sysclk : Bool) (s : State) : Host.Outcome State Fault Refusal :=
  done (opPowerUp s sa.val sysclk)

/-- MFR_STEP (R544, R545). -/
def execMfrStep (kind : Fin 3) (value failures : Nat) (s : State) : Host.Outcome State Fault Refusal :=
  done (opMfrStep s kind.val value failures)

/-- MFR_STEP_ACK (R545). -/
def execMfrStepAck (b0 b1 : Byte) (failures : Nat) (s : State) : Host.Outcome State Fault Refusal :=
  done (opMfrAck s b0 b1 failures)

/-- ANNOUNCE_TIMEOUT (R546). -/
def execAnnounceTimeout (s : State) : Host.Outcome State Fault Refusal := done (opAnnTimeout s)

/-- REANNOUNCE (R546). -/
def execReannounce (s : State) : Host.Outcome State Fault Refusal := done (opReannounce s)

/-- NO_ACK_STEP (R548). -/
def execNoAckStep (watts : Nat) (s : State) : Host.Outcome State Fault Refusal := done (opNoAckStep s watts)

/-- TELEMETRY (R543). -/
def execTelemetry (vin iout pout failures : Nat) (s : State) : Host.Outcome State Fault Refusal :=
  done (opTelemetry s vin iout pout failures)

/-- SMBALERT (R550). -/
def execSmbalert (status failures : Nat) (s : State) : Host.Outcome State Fault Refusal :=
  done (opAlert s status failures)

/-- PMBUS_CLOCK_TIMEOUT (R687): one failed transaction. -/
def execPmbusClockTimeout (s : State) : Host.Outcome State Fault Refusal :=
  done (if s.hubOn then s.pecErr 1 else s)

/-- GRAZE_ENTER (R552). -/
def execGrazeEnter (f : FoldNo) (s : State) : Host.Outcome State Fault Refusal := done (opGrazeEnter s f.val)

/-- GRAZE_EXIT (R230, R552). -/
def execGrazeExit (f : FoldNo) (s : State) : Host.Outcome State Fault Refusal := done (s.grazeExit f.val)

/-- SET_POWER (R553, R603). -/
def execSetPower (s : State) : Host.Outcome State Fault Refusal := done (opSetPower s)

/-- POWER_ENTRY_DONE (R553, R554). -/
def execPowerEntryDone (s : State) : Host.Outcome State Fault Refusal := done (opEntryDone s)

/-- TIMER (R555, R572). -/
def execTimer (s : State) : Host.Outcome State Fault Refusal := done (opTimer s)

/-- POWER_EXIT (R556, R557). -/
def execPowerExit (s : State) : Host.Outcome State Fault Refusal := done (opPowerExit s)

/-- POWER_EXIT_DONE (R357, R516, R553, R557). -/
def execPowerExitDone (s : State) : Host.Outcome State Fault Refusal := done (opExitDone s)

/-- THERMAL_THROTTLE (R558, R559). -/
def execThermalThrottle (stk : Bool) (temp : Nat) (s : State) : Host.Outcome State Fault Refusal :=
  done (opThrottle s stk temp)

/-- THERMAL_RELEASE (R559). -/
def execThermalRelease (stk : Bool) (temp : Nat) (s : State) : Host.Outcome State Fault Refusal :=
  done (opRelease s stk temp)

/-- THERMAL_TRIP (R560, R678). -/
def execThermalTrip (stk : Bool) (temp : Nat) (s : State) : Host.Outcome State Fault Refusal :=
  done (opTrip s stk temp)

/-- BOOST (R558, R561). -/
def execBoost (f : FoldNo) (mhz : Nat) (s : State) : Host.Outcome State Fault Refusal := done (opBoost s f.val mhz)

/-- POWER_CAP_ENFORCE (R563). -/
def execPowerCapEnforce (m : MeanDraw) (s : State) : Host.Outcome State Fault Refusal :=
  done (opCapEnforce s m.short m.watts)

/-- I3C_PRIVATE_READ (R685). -/
def execI3cPrivateRead (len : Nat) (s : State) : Host.Outcome State Fault Refusal := done (opI3cRead s len)

/-- I3C_PRIVATE_WRITE (R555, R686). -/
def execI3cPrivateWrite (_bytes : List Byte) (s : State) : Host.Outcome State Fault Refusal := done (opI3cWrite s)

/-- DYNAMIC_ADDRESS (R684). -/
def execDynamicAddress (a : I3cAssign) (s : State) : Host.Outcome State Fault Refusal :=
  done (opDynAddr s a)

end Sys2Proof.Machine
end

