-- ==== Sys2Proof/Machine/Security.lean ====
section
/-!
DEFINITION. Sys2Proof/Machine/Security.lean: security requests (R589–R595), fuse programs (R538, R576), the TAP and the debug
access port (R596, R597, R602), and the DOE objects (R598, R599).
-/
namespace Sys2Proof.Machine

/-! ### Request and reply words (R589) -/

def reqOp (w : W64) : Nat := fld w 0 8
def reqAddr (w : W64) : Nat := fld w 16 48

def replyWord (w : W64) (st : Status) (v : Nat) : W64 :=
  put 0 16 (fld w 0 16) ||| put 16 8 st.code ||| put 24 40 v

/-- Answer a request on its path: private channel 67 as soon as it is empty (R517), or the TAP. -/
def State.secReply (s : State) (jtag : Bool) (w : W64) (st : Status) (v : Nat) : State :=
  if jtag then s.updSec fun x => { x with jtagRep := replyWord w st v }
  else (s.updSec fun x => { x with replies := x.replies ++ [replyWord w st v] }).secPost

/-- The request that the security core takes next on a path; it takes none while a fuse write is in progress or its
reply to the last one waits (R591). -/
def State.secTake (s : State) (req : Option JtagReq) : Option (W64 × Bool × State) :=
  if !s.hubOn || s.sec.fuse.isSome || !s.sec.replies.isEmpty then none
  else match req with
    | none =>
      if (s.mbox 65).full then some ((s.mbox 65).word, false, s.updMbox 65 fun b => { b with full := false, word := 0 }) else none
    | some r => if s.sec.tap = 0x10 then some (r.word, true, s.updSec fun x => { x with buf := r.buf }) else none

/-- A request: legal states first; a word with an OP outside the table is refused (log entry 54). -/
def State.secDo (s : State) (req : Option JtagReq) (op : Nat) (legal : HostSt → Bool)
    (body : State → W64 → Bool → State) : State :=
  match s.secTake req with
  | none => s
  | some (w, jtag, t) =>
    if reqOp w = op then
      if legal s.host.st then body t w jtag else t.secReply jtag w .notInState s.hostCode
    else if reqOp w = 0 || 7 < reqOp w then t.secReply jtag w .unsupported 0
    else s

def anyState : HostSt → Bool := fun _ => true
def onlyOffline : HostSt → Bool := fun h => h = .offline
def unlockStates : HostSt → Bool := fun h => h ≠ .running && h ≠ .recovering

/-! ### Blocks (R590) -/

/-- Whether a block that a request names may be used. -/
def State.secBlockOk (s : State) (jtag : Bool) (a len : Nat) : Bool :=
  a % 64 = 0 &&
  if jtag then a + len ≤ 4096
  else a + len ≤ interTop && (List.range ((a + len - 1) / 0x200000 + 1 - a / 0x200000)).all fun i =>
    s.pageEntry (a / 0x200000 + i) &&& (pgV + pgHR + pgS) = pgV + pgHR

def State.secBytes (s : State) (jtag : Bool) (a len : Nat) : List Byte :=
  if jtag then (s.sec.buf.drop a).take len else s.moveBytes a len

/-- Bytes of the block buffer, or of memory, are replaced. -/
def State.secPut (s : State) (jtag : Bool) (a : Nat) (bs : List Byte) : State :=
  if jtag then s.updSec fun x => { x with buf := x.buf.take a ++ bs ++ x.buf.drop (a + bs.length) } else s.write 3 a bs

/-! ### NONCE -/

/-- The words of the nonce drawn at a count. -/
def nonceWords (draw : Nat) : List W64 := (List.range 4).map fun i => Config.freeWord (draw + i)

def State.pathNonce (s : State) (jtag : Bool) : Option PathNonce := if jtag then s.sec.jtagN else s.sec.hostN
def State.setNonce (s : State) (jtag : Bool) (n : Option PathNonce) : State :=
  s.updSec fun x => if jtag then { x with jtagN := n } else { x with hostN := n }

def opNonce (s : State) (req : Option JtagReq) : State :=
  s.secDo req 0x01 anyState fun s w jtag =>
    let a := reqAddr w
    if !s.secBlockOk jtag a 64 then s.secReply jtag w .bounds 0
    else
      let d := s.free
      let s := ({ s with free := d + 4 }.setNonce jtag (some { draw := d, at_ := s.now })).secPut jtag a
        (wordsBytes (nonceWords d))
      s.secReply jtag w .ok 0

/-! ### Unlock certificates (R593, R594) -/

def crtLevel (c : List W64) : Nat := fld (wd c 6) 0 8
def crtRoot (c : List W64) : Bool := bit (wd c 6) 8
def crtRootNo (c : List W64) : Nat := fld (wd c 6) 10 2
def crtRev (c : List W64) : Nat := fld (wd c 6) 12 2
def crtLen (c : List W64) : Nat := 64 + (if crtRoot c then 1793 else 0) + 1280

def crtReserved (c : List W64) : Bool :=
  fld (wd c 0) 12 20 ≠ 0 || bit (wd c 6) 9 || fld (wd c 6) 14 50 ≠ 0 || wd c 7 ≠ 0

/-- Whether the signer may sign the level. -/
def State.maySign (s : State) (c : List W64) (keyOk : Bool) : Bool :=
  if crtRoot c then keyOk && (s.sec.rootRev >>> crtRootNo c) % 2 = 0
  else s.cfg.boot ≠ .noImage && (crtLevel c = 1 || (crtLevel c = 2 && s.sec.level = 1 && s.sec.permDbg))

/-- R594 on a certificate for a request; with it, whether step 4 was reached, which spends the nonce. -/
def State.crtCheck (s : State) (c : List W64) (op : Nat) (jtag keyOk sigOk : Bool) : Status × Bool :=
  let lv := crtLevel c
  let fits : Bool := if op = 0x02 then lv = 1 || lv = 2 else if op = 0x06 then lv = 3 else lv = 4
  let n := s.pathNonce jtag
  let old : Bool := match n with
    | some p => p.at_ + 600000000000 < s.now
    | none => true
  let same : Bool := match n with
    | some p => (List.range 4).map (fun i => wd c (2 + i)) = nonceWords p.draw
    | none => false
  let first := (commonChecks c [0x80] (crtReserved c)).andThen fun _ =>
    firstFail [(wd c 1 ≠ Config.deviceId || lv = 0 || 4 < lv || !fits, .bounds), (old, .timeout)]
  (first.andThen fun _ => firstFail [
    (!same, .signature), (!(s.maySign c keyOk), .deniedSecure), (!sigOk, .signature)], first = .ok)

/-- A request that names an unlock certificate: the block, the certificate, then what it asks for. -/
def State.withCrt (s : State) (w : W64) (jtag keyOk sigOk : Bool) (body : State → List W64 → State) : State :=
  let a := reqAddr w
  if !s.secBlockOk jtag a 64 then s.secReply jtag w .bounds 0
  else
    let c := leWords 8 (s.secBytes jtag a 64)
    if !s.secBlockOk jtag a (crtLen c) then s.secReply jtag w .bounds 0
    else
      let s := if jtag then s else s.corrected a (crtLen c)
      let s := if jtag then s else match s.ueIn a (crtLen c) with
        | some u => s.consumeUE 3 u
        | none => s
      let (st, spent) := s.crtCheck c (reqOp w) jtag keyOk sigOk
      let s := if spent then s.setNonce jtag none else s
      if st ≠ .ok then s.secReply jtag w st 0 else body s c

/-- Enter a debug level; D2 erases the identity key (R588). -/
def State.enterDebug (s : State) (lv : Nat) : State :=
  s.updSec fun x => if lv = 2 then { x with debug := 2, opened := true, idReady := false, dbgKey := true }
    else { x with debug := lv }

/-- UNLOCK; it waits for an entry of SET_POWER in progress (R595). -/
def opUnlock (s : State) (req : Option JtagReq) (keyOk sigOk : Bool) : State :=
  if s.pwr.entering.isSome then s
  else s.secDo req 0x02 unlockStates fun s w jtag =>
    s.withCrt w jtag keyOk sigOk fun s c => (s.enterDebug (crtLevel c)).secReply jtag w .ok (crtLevel c)

def opLock (s : State) (req : Option JtagReq) : State :=
  s.secDo req 0x03 anyState fun s w jtag => (s.enterDebug 0).secReply jtag w .ok 0

def opDebugNs (s : State) (req : Option JtagReq) : State :=
  s.secDo req 0x04 anyState fun s w jtag =>
    if !(setNsAllow s.cfg.settings) then s.secReply jtag w .deniedSecure 0
    else (if s.sec.debug = 0 then s.enterDebug 1 else s).secReply jtag w .ok 1

/-! ### Fuses -/

/-- Begin a fuse program, or refuse it (R538). -/
def State.startFuse (s : State) (kind arg : Nat) (w : W64) (jtag : Bool) : State :=
  if 2 ≤ s.pwr.level then s.secReply jtag w .supplyLow 0
  else s.updSec fun x => { x with fuse := some { kind := kind, arg := arg, req := w, jtag := jtag } }

/-- The lowest SVN of the running image's components. -/
def Sec.minSvn (x : Sec) : Nat := (x.svns.min?).getD 0

def opSvnCommit (s : State) (req : Option JtagReq) : State :=
  s.secDo req 0x05 onlyOffline fun s w jtag =>
    if s.sec.minSvn ≤ s.sec.svnFloor then s.secReply jtag w .ok s.sec.svnFloor else s.startFuse 2 s.sec.minSvn w jtag

def opRma (s : State) (req : Option JtagReq) (keyOk sigOk : Bool) : State :=
  s.secDo req 0x06 onlyOffline fun s w jtag =>
    s.withCrt w jtag keyOk sigOk fun s _ => s.startFuse 3 0 w jtag

def opRevoke (s : State) (req : Option JtagReq) (keyOk sigOk : Bool) : State :=
  s.secDo req 0x07 onlyOffline fun s w jtag =>
    s.withCrt w jtag keyOk sigOk fun s c => s.startFuse 4 (crtRev c) w jtag

/-- A base die fuses its first k soft repairs (R275). -/
def Die.fuse (v : Die) (d k : Nat) : Die :=
  if v.soft ≤ k then { v with hard := satAdd 16 v.hard v.soft, soft := 0, hardUsed := v.used, remapped := [] }
  else { v with
    hard := satAdd 16 v.hard k, soft := v.soft - k, remapped := v.remapped.drop k,
    hardUsed := (v.remapped.take k).foldl (fun m row => SMap.upd 0 m (Config.dramBank d row) (· + 1)) v.hardUsed }

/-- Soft repairs of every base die, and the fusing of the first n of them, die by die. -/
def State.softRepairs (s : State) : Nat := (List.range 20).foldl (fun n d => n + (s.die d).soft) 0
def State.fuseRepairs (s : State) (n : Nat) : State :=
  ((List.range 20).foldl (fun (x : State × Nat) d =>
    let v := x.1.die d
    (x.1.setDie d (v.fuse d x.2), x.2 - min v.soft x.2)) (s, n)).1

/-- The floor after `words` words of the thermometer from a to b have been fused (R574). -/
def floorAfter (a b words : Nat) : Nat := if words = 1 && a < 32 && 32 < b then 32 else b

/-- FUSE_WRITE_DONE; `words` counts only when the supply has cut the program short, which completes one word at
least (R538). -/
def opFuseDone (s : State) (words : Nat) : State :=
  match s.sec.fuse with
  | none => s
  | some j =>
    let s := s.updSec fun x => { x with fuse := none }
    if j.kind = 1 then
      let all := s.softRepairs
      let n := if j.cut then min all (max 1 words) else all
      let s := s.fuseRepairs n
      let st : Status := if n < all then .supplyLow else .ok
      match s.cmdOf 0x0C with
      | some c => (s.complete c st [BitVec.ofNat 64 n]).nvEnd st
      | none => s.nvEnd st
    else if j.kind = 2 then
      let f := if j.cut then floorAfter s.sec.svnFloor j.arg (max 1 words) else j.arg
      let s := s.updSec fun x => { x with svnFloor := f }
      let st : Status := if f < j.arg then .supplyLow else .ok
      (s.secReply j.jtag j.req st f).nvEnd st
    else if j.kind = 3 then
      let s := s.updSec fun x => { x with level := 2, idReady := false, dbgKey := true }
      s.secReply j.jtag j.req .ok 2
    else
      let s := s.updSec fun x => { x with rootRev := x.rootRev ||| 2 ^ j.arg }
      s.secReply j.jtag j.req .ok s.sec.rootRev

/-! ### The TAP (R596, R597) and the debug access port (R602) -/

/-- Load an instruction that leaves the pins to the device. -/
def opTap (s : State) (code : Nat) : State :=
  match s.cfg.boot with
  | .noPower => s
  | _ => s.updSec fun x => { x with tap := code, pins := false, pinsWait := false }

/-- IDCODE (R596). -/
def opIdcode (s : State) : State :=
  match s.cfg.boot with
  | .noPower => s
  | _ => (opTap s 0x01).answer (leBytes 4 0x09620A8F)

/-- EXTEST, CLAMP or HIGHZ: a WARM reset first unless the host state is OFFLINE; the pins once it reads so. -/
def opTakePins (s : State) (code : Nat) : State :=
  match s.cfg.boot with
  | .noPower => s
  | _ =>
    let s := s.updSec fun x => { x with tap := code }
    if !s.hubOn then s.updSec fun x => { x with pins := true }
    else if s.host.st ≠ .offline then s.warmReset.updSec fun x => { x with pinsWait := true }
    else if s.host.ready then s.updSec fun x => { x with pins := true }
    else s.updSec fun x => { x with pinsWait := true }

/-- A word that the port reads from, or writes to, memory. -/
def State.dapMemory (s : State) (who : Nat) (write : Bool) (a : Nat) (v : W64) : State :=
  let k := if who = 3 then (if write then Acc.write else .read) else if write then .hostWrite else .hostRead
  match s.accStatus who k a 8 with
  | .ok =>
    if write then s.write who a (leBytes 8 v.toNat)
    else
      let s := s.corrected a 8
      match s.ueIn a 8 with
      | some u => (s.consumeUE who u).answer (s.moveBytes a 8)
      | none => s.answer (s.moveBytes a 8)
  | _ => if write then s else s.answerWord allOnes

/-- DAP_ACCESS: an aligned 64-bit access as agent 1 at D1 and as agent 3 at D2; it wakes a grazed fold. -/
def opDap (s : State) (write : Bool) (a : Nat) (v : W64) : State :=
  if !s.hubOn || s.sec.tap ≠ 0x11 || s.sec.debug = 0 || a % 8 ≠ 0 then s
  else
    let who := if s.sec.debug = 2 then 3 else 1
    let pl := place a
    let far := match pl with
      | .hub _ | .nowhere => false
      | _ => true
    let ones := if write then s else s.answerWord allOnes
    if far && s.foldsDown then ones
    else
      let s := match pl with
        | .foldReg f _ | .store f _ => s.grazeExit f
        | _ => s
      let reg := if write then s.writeReg who pl v else let (t, x) := s.readReg who pl; t.answerWord x
      match pl with
      | .nowhere => ones
      | .hub _ | .dieReg .. => reg
      | .foldReg f _ => if s.foldRegOpen who f then reg else ones
      | _ => s.dapMemory who write a v

/-! ### DOE objects (R598, R599) -/

def cryptoBytes (kind draw n : Nat) : List Byte := (List.range n).map (Config.cryptoByte kind draw)

/-- The host reaches the DOE mailbox. -/
def State.doeOn (s : State) : Bool := s.hubUp && s.host.ready && !s.host.perst

def doeWord (ty : Nat) (st : Status) : W64 := put 0 8 ty ||| put 8 8 st.code

/-- A response: it waits in the mailbox as an object under Amidom's vendor ID (R481, R598). -/
def State.doeReply (s : State) (ty : Nat) (st : Status) (bs : List Byte) : State :=
  let r := leBytes 8 (doeWord ty st).toNat ++ bs
  (s.updSec fun x => { x with doe := doeObject 0x1D7C ty r }).answer r

/-- The debug key signs (R588, R599). -/
def State.debugSigns (s : State) : Bool := !s.sec.idReady
def State.keyReady (s : State) : Bool := s.sec.idReady || s.sec.dbgKey

def opGetIdentity (s : State) : State :=
  if !s.doeOn then s
  else if !s.keyReady then s.doeReply 0x01 .notReady []
  else s.doeReply 0x01 .ok (leBytes 8 Config.deviceId.toNat ++ leBytes 8 (b2n s.debugSigns) ++
    cryptoBytes (b2n s.debugSigns) 0 1793)

/-- The owner certificate of the running image; in the mode of R646 there is none. -/
def opGetOwnerCert (s : State) : State :=
  if !s.doeOn then s
  else if s.cfg.boot = .noImage then s.doeReply 0x02 .notReady []
  else s.doeReply 0x02 .ok (cryptoBytes 2 s.sec.meas 3137)

/-- The signed part of the report. -/
def State.report (s : State) (n : List Byte) : List Byte :=
  let x := s.sec
  let bits : W64 := put 0 2 x.level ||| put 2 2 x.debug ||| put 4 1 (b2n x.opened) ||| put 5 1 (b2n s.debugSigns)
    ||| put 6 1 (b2n x.image) ||| put 7 1 (b2n (s.res.regs.stsBits &&& stsFEED ≠ 0))
    ||| put 8 1 (b2n (s.res.regs.stsBits &&& stsOVERRIDE ≠ 0)) ||| put 9 3 s.hostCode ||| put 16 8 x.svnFloor
  wordsBytes [put 0 8 0x82 ||| put 8 4 1, Config.deviceId] ++ (n ++ List.replicate 32 0#8).take 32 ++
  wordsBytes [bits, BitVec.ofNat 64 s.now, s.jobWord 1, s.res.regs.commitGlb] ++
  ((List.range 4).flatMap fun i => (List.range 64).map fun b => Config.cryptoByte 3 x.meas (64 * i + b)) ++
  (List.range 64).map (fun b => Config.cryptoByte 3 x.meas (256 + b)) ++
  match s.job with
  | some j => (List.range 64).map fun b => Config.cryptoByte 3 j.digest b
  | none => List.replicate 64 0#8

def opAttest (s : State) (n : List Byte) : State :=
  if !s.doeOn then s
  else if !s.keyReady then s.doeReply 0x03 .notReady []
  else
    let d := s.free
    { s with free := d + 1 }.doeReply 0x03 .ok (s.report n ++ cryptoBytes 4 d 1280)

end Sys2Proof.Machine
end

