-- ==== Sys2Proof/Machine/SecCmds.lean ====
section
/-!
DEFINITION. Sys2Proof/Machine/SecCmds.lean: the commands of chapter 15.
-/
namespace Sys2Proof.Machine

/-- GET_IDENTITY (R598). -/
def execGetIdentity (s : State) : Host.Outcome State Fault Refusal := done (opGetIdentity s)

/-- GET_OWNER_CERT (R598). -/
def execGetOwnerCert (s : State) : Host.Outcome State Fault Refusal := done (opGetOwnerCert s)

/-- ATTEST (R599). -/
def execAttest (verifierNonce : List Byte) (s : State) : Host.Outcome State Fault Refusal :=
  done (opAttest s verifierNonce)

/-- NONCE (R589, R590). -/
def execNonce (req : Option JtagReq) (s : State) : Host.Outcome State Fault Refusal := done (opNonce s req)

/-- UNLOCK (R588, R592–R595). -/
def execUnlock (req : Option JtagReq) (keyOk sigOk : Bool) (s : State) : Host.Outcome State Fault Refusal :=
  done (opUnlock s req keyOk sigOk)

/-- LOCK (R592). -/
def execLock (req : Option JtagReq) (s : State) : Host.Outcome State Fault Refusal := done (opLock s req)

/-- DEBUG_NS (R589). -/
def execDebugNs (req : Option JtagReq) (s : State) : Host.Outcome State Fault Refusal := done (opDebugNs s req)

/-- SVN_COMMIT (R584, R589). -/
def execSvnCommit (req : Option JtagReq) (s : State) : Host.Outcome State Fault Refusal := done (opSvnCommit s req)

/-- RMA (R589, R594). -/
def execRma (req : Option JtagReq) (keyOk sigOk : Bool) (s : State) : Host.Outcome State Fault Refusal :=
  done (opRma s req keyOk sigOk)

/-- REVOKE (R578, R589, R594). -/
def execRevoke (req : Option JtagReq) (keyOk sigOk : Bool) (s : State) : Host.Outcome State Fault Refusal :=
  done (opRevoke s req keyOk sigOk)

/-- FUSE_WRITE_DONE (R538, R576, R591). -/
def execFuseWriteDone (words : Nat) (s : State) : Host.Outcome State Fault Refusal := done (opFuseDone s words)

/-- IDCODE (R596). -/
def execIdcode (s : State) : Host.Outcome State Fault Refusal := done (opIdcode s)

/-- SAMPLE/PRELOAD (R596). -/
def execSamplePreload (s : State) : Host.Outcome State Fault Refusal := done (opTap s 0x02)

/-- EXTEST (R597). -/
def execExtest (s : State) : Host.Outcome State Fault Refusal := done (opTakePins s 0x03)

/-- CLAMP (R597). -/
def execClamp (s : State) : Host.Outcome State Fault Refusal := done (opTakePins s 0x04)

/-- HIGHZ (R597). -/
def execHighz (s : State) : Host.Outcome State Fault Refusal := done (opTakePins s 0x05)

/-- SECMBX (R596). -/
def execSecmbx (s : State) : Host.Outcome State Fault Refusal := done (opTap s 0x10)

/-- DAP (R596). -/
def execDap (s : State) : Host.Outcome State Fault Refusal := done (opTap s 0x11)

/-- BYPASS (R596). -/
def execBypass (s : State) : Host.Outcome State Fault Refusal := done (opTap s 0xFF)

/-- DAP_ACCESS (R602). -/
def execDapAccess (write : Bool) (addr : Nat) (v : W64) (s : State) : Host.Outcome State Fault Refusal :=
  done (opDap s write addr v)

end Sys2Proof.Machine
end

