-- ==== Sys2Proof/Machine/StartCmds.lean ====
section
/-!
DEFINITION. Sys2Proof/Machine/StartCmds.lean: the commands of a start-up, flash writes and the beats of the security core.
-/
namespace Sys2Proof.Machine

/-- SEC_BEAT: every 65,536 ticks since WARM, in every power state but Off (R530). -/
def opSecBeat (s : State) : State :=
  if !s.hubOn then s
  else
    let n := s.host.regs.secBeat
    let s := { s with now := max s.now (s.cfg.bootAt + (n.toNat + 1) * 65536) }
    s.hostRegs fun r => { r with secBeat := n + 1 }

/-- COLD_START (R540, R641). -/
def execColdStart (s : State) : Host.Outcome State Fault Refusal := done (opColdStart s)

/-- IMAGE_VERIFIED (R580, R582, R645, R646). -/
def execImageVerified (a b : FlashSlot) (flashOk : Bool) (s : State) : Host.Outcome State Fault Refusal :=
  done (opImage s a b flashOk)

/-- STARTUP_COMPLETE (R641, R642). -/
def execStartupComplete (revision : Nat) (s : State) : Host.Outcome State Fault Refusal := done (opStartup s revision)

/-- FLASH_WRITE (R661): a write of CFG_FLASH with GO = 1. -/
def execFlashWrite (who : Nat) (v : W64) (s : State) : Host.Outcome State Fault Refusal :=
  done (if bit v 1 then s.busWrite who (.hub 0x500018) v else s)

/-- FLASH_WRITE_DONE (R538, R661, R665). -/
def execFlashWriteDone (compareOk : Bool) (s : State) : Host.Outcome State Fault Refusal := done (opFlashDone s compareOk)

/-- SEC_BEAT (R530). -/
def execSecBeat (s : State) : Host.Outcome State Fault Refusal := done (opSecBeat s)

end Sys2Proof.Machine
end

