-- ==== Sys2Proof/Machine/StreamCmds.lean ====
section
/-!
DEFINITION. Sys2Proof/Machine/StreamCmds.lean: the commands of the stream engine.
-/
namespace Sys2Proof.Machine

/-- STREAM_START (R283, R298, R303–R305). -/
def execStreamStart (f : FoldNo) (s : State) : Host.Outcome State Fault Refusal := done (opStreamStart s f.val)

/-- STREAM_CREDIT (R291). -/
def execStreamCredit (f : FoldNo) (k : Fin 16) (s : State) : Host.Outcome State Fault Refusal :=
  done (opStreamCredit s f.val k.val)

/-- WATCH_NOTIFY (R299). -/
def execWatchNotify (f : FoldNo) (k : Fin 16) (units : Nat) (s : State) : Host.Outcome State Fault Refusal :=
  done (opWatchNotify s f.val k.val units)

/-- SEAL_REPLY (R300, R301). -/
def execSealReply (f : FoldNo) (k : Fin 16) (s : State) : Host.Outcome State Fault Refusal :=
  done (opSealReply s f.val k.val)

/-- STREAM_GATE_OPEN (R303). -/
def execStreamGateOpen (f : FoldNo) (k : Fin 16) (s : State) : Host.Outcome State Fault Refusal :=
  done (opGateOpen s f.val k.val)

/-- STREAM_COMPLETE (R284, R293). -/
def execStreamComplete (f : FoldNo) (k : Fin 16) (s : State) : Host.Outcome State Fault Refusal :=
  done (opStreamComplete s f.val k.val)

/-- SEND_ACKNOWLEDGED (R284, R307). -/
def execSendAcknowledged (f : FoldNo) (k : Fin 16) (s : State) : Host.Outcome State Fault Refusal :=
  done (opSendAck s f.val k.val)

/-- GATHER_SCATTER_COMPLETE (R310–R315). -/
def execGatherScatterComplete (f : FoldNo) (k : Fin 16) (s : State) : Host.Outcome State Fault Refusal :=
  done (opGatherScatter s f.val k.val)

/-- TRANSFORM_COMPLETE (R316–R320). -/
def execTransformComplete (f : FoldNo) (k : Fin 16) (s : State) : Host.Outcome State Fault Refusal :=
  done (opTransform s f.val k.val)

/-- DEMAND_FETCH_ARRIVE (R136, R306). -/
def execDemandFetchArrive (f : FoldNo) (s : State) : Host.Outcome State Fault Refusal :=
  done (opDemandFetch s f.val)

end Sys2Proof.Machine
end

