-- ==== Sys2Proof/Machine/Threads.lean ====
section
/-!
DEFINITION. Sys2Proof/Machine/Threads.lean: the control-core instructions (R214–R217) and the completions a thread
waits for. Each says which words of its row R218 makes a fault, and what the instruction does otherwise.
-/
namespace Sys2Proof.Machine

abbrev Result := Host.Outcome State Fault Refusal

/-! ### Arithmetic and logic -/

def execAlu (t : Tid) (w : W32) (s : State) : Result :=
  done (issueInstr s t w (!knownFn (iFn w) || (0x20 ≤ iFn w && iRb w ≠ 0)) fun s => opAlu s t w)
def execAddi (t : Tid) (w : W32) (s : State) : Result :=
  done (issueInstr s t w false fun s => opImm s t w (· + w64 (sext 12 (iImm12 w))))
def execAndi (t : Tid) (w : W32) (s : State) : Result :=
  done (issueInstr s t w false fun s => opImm s t w (· &&& BitVec.ofNat 64 (iImm12 w)))
def execOri (t : Tid) (w : W32) (s : State) : Result :=
  done (issueInstr s t w false fun s => opImm s t w (· ||| BitVec.ofNat 64 (iImm12 w)))
def execXori (t : Tid) (w : W32) (s : State) : Result :=
  done (issueInstr s t w false fun s => opImm s t w (· ^^^ BitVec.ofNat 64 (iImm12 w)))
def execShi (t : Tid) (w : W32) (s : State) : Result :=
  done (issueInstr s t w (fld w 8 4 ≠ 0) fun s => opImm s t w fun a => shiftOp (fld w 6 2) a (fld w 0 6))
def execLui (t : Tid) (w : W32) (s : State) : Result :=
  done (issueInstr s t w false fun s => s.finish t (iRd w) (w64 (sext 17 (iImm17 w) * 2 ^ 12)))
def execLdpc (t : Tid) (w : W32) (s : State) : Result :=
  done (issueInstr s t w false fun s =>
    opLoad s t (BitVec.ofNat 64 ((s.th t).pc.toNat / 8 * 8) + w64 (8 * sext 17 (iImm17 w))) 8 (iRd w) false)
def execCmp (t : Tid) (w : W32) (s : State) : Result :=
  done (issueInstr s t w (0xB < iCc w || fld w 0 5 ≠ 0) fun s =>
    opPred s t (iPd w) (condition (iCc w) (s.rg t (iCRa w)) (s.rg t (iCRb w))))
def execCmpi (t : Tid) (w : W32) (s : State) : Result :=
  done (issueInstr s t w (0xB < iCc w) fun s =>
    opPred s t (iPd w) (condition (iCc w) (s.rg t (iCRa w)) (w64 (sext 10 (iImm10 w)))))
def execPred (t : Tid) (w : W32) (s : State) : Result :=
  done (issueInstr s t w (3 < iPFn w || fld w 0 10 ≠ 0) fun s =>
    opPred s t (iPd w) (predFn (iPFn w) ((s.th t).pred (iPa w)) ((s.th t).pred (iPb w))))

/-! ### Memory -/

/-- The address ra + imm12 (s). -/
def memAddr (s : State) (t : Tid) (w : W32) : W64 := s.rg t (iRa w) + w64 (sext 12 (iImm12 w))

/-- LDB, LDH, LDW and LDD take the size from OP bits 1:0. -/
def execLdz (t : Tid) (w : W32) (s : State) : Result :=
  done (issueInstr s t w false fun s => opLoad s t (memAddr s t w) (2 ^ (opOf w % 4)) (iRd w) false)
def execLds (t : Tid) (w : W32) (s : State) : Result :=
  done (issueInstr s t w false fun s => opLoad s t (memAddr s t w) (2 ^ (opOf w % 4)) (iRd w) true)
def execSto (t : Tid) (w : W32) (s : State) : Result :=
  done (issueInstr s t w false fun s => opStore s t (memAddr s t w) (2 ^ (opOf w % 4)) (s.rg t (iRd w)))
def execAmo (t : Tid) (w : W32) (s : State) : Result :=
  done (issueInstr s t w (9 < iFn w) fun s => opAmo s t w)

/-! ### Control flow -/

def execBr (t : Tid) (w : W32) (s : State) : Result :=
  done (issueInstr s t w false fun s => opJump s t (branchTarget (s.th t).pc w))
def execCall (t : Tid) (w : W32) (s : State) : Result :=
  done (issueInstr s t w false fun s =>
    let pc := (s.th t).pc
    opJump (s.putReg t.fold.val t.core.val t.thr.val 31 (linkAddr pc)) t (branchTarget pc w))
def execJr (t : Tid) (w : W32) (s : State) : Result :=
  done (issueInstr s t w (1 < iFn w || iRd w ≠ 0 || iRb w ≠ 0) fun s =>
    let pc := (s.th t).pc
    let target := BitVec.ofNat 48 (s.rg t (iRa w)).toNat
    opJump (if iFn w = 1 then s.putReg t.fold.val t.core.val t.thr.val 31 (linkAddr pc) else s) t target)
def execSpawn (t : Tid) (w : W32) (s : State) : Result :=
  done (issueInstr s t w (64 ≤ iFn w) fun s => opSpawn s t w)
def execHalt (t : Tid) (w : W32) (s : State) : Result :=
  done (issueInstr s t w (iRd w ≠ 0 || iRa w ≠ 0 || iSel w ≠ 0) fun s => opHalt s t)
def execYield (t : Tid) (w : W32) (s : State) : Result :=
  done (issueInstr s t w (iRd w ≠ 0 || iRa w ≠ 0 || iSel w ≠ 0) fun s => opYield s t)

/-! ### Engines, slots, fences, special registers -/

def execIssue (t : Tid) (w : W32) (s : State) : Result :=
  done (issueInstr s t w (fld w 6 2 ≠ 0) fun s => opIssue s t w)
def execEvwait (t : Tid) (w : W32) (s : State) : Result :=
  done (issueInstr s t w (iN w = 0) fun s => opEvwait s t w)
def execEvwaitTimeout (t : Tid) (s : State) : Result := done (opEvwaitTimeout s t)
def execEvsig (t : Tid) (w : W32) (s : State) : Result :=
  done (issueInstr s t w (iRa w ≠ 0) fun s => opEvsig s t w)
def execEvsigr (t : Tid) (w : W32) (s : State) : Result :=
  done (issueInstr s t w false fun s => opEvsigr s t w)
def execEvcnt (t : Tid) (w : W32) (s : State) : Result :=
  done (issueInstr s t w (iRa w ≠ 0 || iN w ≠ 0) fun s =>
    s.finish t (iRd w) (BitVec.ofNat 64 (s.slot t.fold.val (iSlot w)).count))
/-- The reserved fields of the three fences: rd, ra and every SEL value but 0, 1 and 2. -/
def fenceBad (w : W32) : Bool := iRd w ≠ 0 || iRa w ≠ 0 || 2 < iSel w
def execFenceF (t : Tid) (w : W32) (s : State) : Result :=
  done (issueInstr s t w (fenceBad w) fun s => opFence s t 0)
def execFenceD (t : Tid) (w : W32) (s : State) : Result :=
  done (issueInstr s t w (fenceBad w) fun s => opFence s t 1)
def execFenceI (t : Tid) (w : W32) (s : State) : Result :=
  done (issueInstr s t w (fenceBad w) fun s =>
    (s.updCore t.fold.val t.core.val fun x => { x with l1i := [], l1iBad := [] }).nextPc t)
def execFenceDone (t : Tid) (s : State) : Result := done (opFenceDone s t)
def execMfs (t : Tid) (w : W32) (s : State) : Result :=
  done (issueInstr s t w (!knownSel (iSel w) || iRa w ≠ 0) fun s => s.finish t (iRd w) (s.special t (iSel w)))
def execMark (t : Tid) (w : W32) (s : State) : Result :=
  done (issueInstr s t w (iRd w ≠ 0) fun s => opMark s t w)

/-! ### Completions -/

def execLoadDataReturn (t : Tid) (evict : List Nat) (refetch corrected : Bool) (s : State) : Result :=
  done (opLoadReturn s t evict refetch corrected)
def execInstructionFetchReturn (t : Tid) (evict : List Nat) (refetch corrected : Bool) (s : State) : Result :=
  done (opFetchReturn s t evict refetch corrected)
def execStoreBufferFree (f : FoldNo) (c : Fin 8) (s : State) : Result := done (opStoreFree s f.val c.val)
def execAmoReturn (t : Tid) (s : State) : Result := done (opAmoReturn s t)

end Sys2Proof.Machine
end

