-- ==== Sys2Proof/Machine/VectorCmds.lean ====
section
/-!
DEFINITION. Sys2Proof/Machine/VectorCmds.lean: the commands of the vector engines.
-/
namespace Sys2Proof.Machine

/-- CHAIN_START (R161, R170, R171, R223). -/
def execChainStart (f : FoldNo) (c : Fin 8) (s : State) : Host.Outcome State Fault Refusal :=
  done (opChainStart s f.val c.val)

/-- CHAIN_COMPLETE (R120, R162, R165): the first or the second of the chains in flight. -/
def execChainComplete (f : FoldNo) (c : Fin 8) (second : Bool) (s : State) : Host.Outcome State Fault Refusal :=
  done (opChainComplete s f.val c.val second)

/-- CODEBOOK_LOAD_DONE (R171). -/
def execCodebookLoadDone (f : FoldNo) (c : Fin 8) (s : State) : Host.Outcome State Fault Refusal :=
  done (opCbDone s f.val c.val)

end Sys2Proof.Machine
end

