-- ==== Sys2Proof/Machine/Dispatch.lean ====
section
/-!
DEFINITION. Sys2Proof/Machine/Dispatch.lean: one arm per command.
-/
namespace Sys2Proof.Machine

/-- What a command does to everything but the queue. -/
def exec (i : Instr) (s : State) : Host.Outcome State Fault Refusal :=
  match i with
  | .alu t w => Sys2Proof.Machine.execAlu t w s
  | .addi t w => Sys2Proof.Machine.execAddi t w s
  | .andi t w => Sys2Proof.Machine.execAndi t w s
  | .ori t w => Sys2Proof.Machine.execOri t w s
  | .xori t w => Sys2Proof.Machine.execXori t w s
  | .shi t w => Sys2Proof.Machine.execShi t w s
  | .lui t w => Sys2Proof.Machine.execLui t w s
  | .ldpc t w => Sys2Proof.Machine.execLdpc t w s
  | .cmp t w => Sys2Proof.Machine.execCmp t w s
  | .cmpi t w => Sys2Proof.Machine.execCmpi t w s
  | .pred t w => Sys2Proof.Machine.execPred t w s
  | .ldz t w => Sys2Proof.Machine.execLdz t w s
  | .lds t w => Sys2Proof.Machine.execLds t w s
  | .sto t w => Sys2Proof.Machine.execSto t w s
  | .amo t w => Sys2Proof.Machine.execAmo t w s
  | .br t w => Sys2Proof.Machine.execBr t w s
  | .call t w => Sys2Proof.Machine.execCall t w s
  | .jr t w => Sys2Proof.Machine.execJr t w s
  | .spawn t w => Sys2Proof.Machine.execSpawn t w s
  | .halt t w => Sys2Proof.Machine.execHalt t w s
  | .yield t w => Sys2Proof.Machine.execYield t w s
  | .issue t w => Sys2Proof.Machine.execIssue t w s
  | .issueDone t => Sys2Proof.Machine.execIssueDone t s
  | .evwait t w => Sys2Proof.Machine.execEvwait t w s
  | .evwaitTimeout t => Sys2Proof.Machine.execEvwaitTimeout t s
  | .evsig t w => Sys2Proof.Machine.execEvsig t w s
  | .evsigr t w => Sys2Proof.Machine.execEvsigr t w s
  | .evcnt t w => Sys2Proof.Machine.execEvcnt t w s
  | .fenceF t w => Sys2Proof.Machine.execFenceF t w s
  | .fenceD t w => Sys2Proof.Machine.execFenceD t w s
  | .fenceI t w => Sys2Proof.Machine.execFenceI t w s
  | .fenceDone t => Sys2Proof.Machine.execFenceDone t s
  | .mfs t w => Sys2Proof.Machine.execMfs t w s
  | .mark t w => Sys2Proof.Machine.execMark t w s
  | .loadDataReturn t evict refetch corrected => Sys2Proof.Machine.execLoadDataReturn t evict refetch corrected s
  | .instructionFetchReturn t evict refetch corrected => Sys2Proof.Machine.execInstructionFetchReturn t evict refetch corrected s
  | .storeBufferFree f c => Sys2Proof.Machine.execStoreBufferFree f c s
  | .amoReturn t => Sys2Proof.Machine.execAmoReturn t s
  | .registerAccessDone t => Sys2Proof.Machine.execRegisterAccessDone t s
  | .matmulStart f => Sys2Proof.Machine.execMatmulStart f s
  | .matmulComplete f => Sys2Proof.Machine.execMatmulComplete f s
  | .demandFetchArrive f => Sys2Proof.Machine.execDemandFetchArrive f s
  | .slotClr who f v => Sys2Proof.Machine.execSlotClr who f v s
  | .chainStart f c => Sys2Proof.Machine.execChainStart f c s
  | .chainComplete f c second => Sys2Proof.Machine.execChainComplete f c second s
  | .codebookLoad who f c v => Sys2Proof.Machine.execCodebookLoad who f c v s
  | .codebookLoadDone f c => Sys2Proof.Machine.execCodebookLoadDone f c s
  | .streamStart f => Sys2Proof.Machine.execStreamStart f s
  | .streamCredit f k => Sys2Proof.Machine.execStreamCredit f k s
  | .watchNotify f k units => Sys2Proof.Machine.execWatchNotify f k units s
  | .sealReply f k => Sys2Proof.Machine.execSealReply f k s
  | .streamGateOpen f k => Sys2Proof.Machine.execStreamGateOpen f k s
  | .streamComplete f k => Sys2Proof.Machine.execStreamComplete f k s
  | .sendAcknowledged f k => Sys2Proof.Machine.execSendAcknowledged f k s
  | .gatherScatterComplete f k => Sys2Proof.Machine.execGatherScatterComplete f k s
  | .transformComplete f k => Sys2Proof.Machine.execTransformComplete f k s
  | .stackScrub st met late => Sys2Proof.Machine.execStackScrub st met late s
  | .foldScrub f met late => Sys2Proof.Machine.execFoldScrub f met late s
  | .rowRepair st row => Sys2Proof.Machine.execRowRepair st row s
  | .frameReceive p fseq ack nak ok corr uncorr pkts => Sys2Proof.Machine.execFrameReceive p fseq ack nak ok corr uncorr pkts s
  | .replayTimeout p => Sys2Proof.Machine.execReplayTimeout p s
  | .linkDownTimeout p => Sys2Proof.Machine.execLinkDownTimeout p s
  | .trainingTimeout p => Sys2Proof.Machine.execTrainingTimeout p s
  | .trainingRetry p => Sys2Proof.Machine.execTrainingRetry p s
  | .linkHandshake p ws => Sys2Proof.Machine.execLinkHandshake p ws s
  | .data p vc => Sys2Proof.Machine.execData p vc s
  | .racc p => Sys2Proof.Machine.execRacc p s
  | .signal p vc => Sys2Proof.Machine.execSignal p vc s
  | .mailbox p => Sys2Proof.Machine.execMailbox p s
  | .wake p => Sys2Proof.Machine.execWake p s
  | .cmd p => Sys2Proof.Machine.execCmd p s
  | .readReq p => Sys2Proof.Machine.execReadReq p s
  | .backupReq p => Sys2Proof.Machine.execBackupReq p s
  | .resend p => Sys2Proof.Machine.execResend p s
  | .mirror p => Sys2Proof.Machine.execMirror p s
  | .share p => Sys2Proof.Machine.execShare p s
  | .restore p => Sys2Proof.Machine.execRestore p s
  | .time p => Sys2Proof.Machine.execTime p s
  | .timeExchange p => Sys2Proof.Machine.execTimeExchange p s
  | .credit p => Sys2Proof.Machine.execCredit p s
  | .portReset who p v => Sys2Proof.Machine.execPortReset who p v s
  | .portDisable who p v => Sys2Proof.Machine.execPortDisable who p v s
  | .beatSend => Sys2Proof.Machine.execBeatSend s
  | .peerLost p => Sys2Proof.Machine.execPeerLost p s
  | .vote p => Sys2Proof.Machine.execVote p s
  | .global p => Sys2Proof.Machine.execGlobal p s
  | .mirrorDone p => Sys2Proof.Machine.execMirrorDone p s
  | .mirrorDoneSend => Sys2Proof.Machine.execMirrorDoneSend s
  | .mirrorAck p => Sys2Proof.Machine.execMirrorAck p s
  | .shareAck p => Sys2Proof.Machine.execShareAck p s
  | .snapOwn p => Sys2Proof.Machine.execSnapOwn p s
  | .stopRecord p => Sys2Proof.Machine.execStopRecord p s
  | .resumeVote p => Sys2Proof.Machine.execResumeVote p s
  | .resumeRecord p => Sys2Proof.Machine.execResumeRecord p s
  | .beat p => Sys2Proof.Machine.execBeat p s
  | .pair p => Sys2Proof.Machine.execPair p s
  | .instanceAllocate plan => Sys2Proof.Machine.execInstanceAllocate plan s
  | .reduceComplete plan step => Sys2Proof.Machine.execReduceComplete plan step s
  | .backupDeadline plan step => Sys2Proof.Machine.execBackupDeadline plan step s
  | .reduceTimeout plan step => Sys2Proof.Machine.execReduceTimeout plan step s
  | .heartbeatMiss agent => Sys2Proof.Machine.execHeartbeatMiss agent s
  | .shepherdRestartTimeout => Sys2Proof.Machine.execShepherdRestartTimeout s
  | .test pass => Sys2Proof.Machine.execTest pass s
  | .clear => Sys2Proof.Machine.execClear s
  | .map => Sys2Proof.Machine.execMap s
  | .portReturnTimeout p => Sys2Proof.Machine.execPortReturnTimeout p s
  | .narrowAccess off write v => Sys2Proof.Machine.execNarrowAccess off write v s
  | .registerWrite who addr v => Sys2Proof.Machine.execRegisterWrite who addr v s
  | .bar2Read off len => Sys2Proof.Machine.execBar2Read off len s
  | .bar2Write off bytes => Sys2Proof.Machine.execBar2Write off bytes s
  | .poisonedTlp => Sys2Proof.Machine.execPoisonedTlp s
  | .configurationRequest r => Sys2Proof.Machine.execConfigurationRequest r s
  | .doorbell v => Sys2Proof.Machine.execDoorbell v s
  | .nop => Sys2Proof.Machine.execNop s
  | .configure => Sys2Proof.Machine.execConfigure s
  | .load signed => Sys2Proof.Machine.execLoad signed s
  | .loadDone => Sys2Proof.Machine.execLoadDone s
  | .start => Sys2Proof.Machine.execStart s
  | .pause => Sys2Proof.Machine.execPause s
  | .resume => Sys2Proof.Machine.execResume s
  | .unload => Sys2Proof.Machine.execUnload s
  | .stage => Sys2Proof.Machine.execStage s
  | .stageAnswer island answer status => Sys2Proof.Machine.execStageAnswer island answer status s
  | .tallyRead => Sys2Proof.Machine.execTallyRead s
  | .queryTensor => Sys2Proof.Machine.execQueryTensor s
  | .setPower => Sys2Proof.Machine.execSetPower s
  | .fuseRepair => Sys2Proof.Machine.execFuseRepair s
  | .warmReset => Sys2Proof.Machine.execWarmReset s
  | .perstAssert => Sys2Proof.Machine.execPerstAssert s
  | .perstRelease => Sys2Proof.Machine.execPerstRelease s
  | .resultSlotRead slot word len => Sys2Proof.Machine.execResultSlotRead slot word len s
  | .hstResAck v => Sys2Proof.Machine.execHstResAck v s
  | .hubmReset v => Sys2Proof.Machine.execHubmReset v s
  | .mbxDataWrite who n v => Sys2Proof.Machine.execMbxDataWrite who n v s
  | .mbxTake who n => Sys2Proof.Machine.execMbxTake who n s
  | .mbxStsRead who n => Sys2Proof.Machine.execMbxStsRead who n s
  | .crookRead who k => Sys2Proof.Machine.execCrookRead who k s
  | .crookWrite who k v => Sys2Proof.Machine.execCrookWrite who k v s
  | .aspmL1Entry => Sys2Proof.Machine.execAspmL1Entry s
  | .pcieL1 => Sys2Proof.Machine.execPcieL1 s
  | .getIdentity => Sys2Proof.Machine.execGetIdentity s
  | .getOwnerCert => Sys2Proof.Machine.execGetOwnerCert s
  | .attest verifierNonce => Sys2Proof.Machine.execAttest verifierNonce s
  | .nonce req => Sys2Proof.Machine.execNonce req s
  | .unlock req keyOk sigOk => Sys2Proof.Machine.execUnlock req keyOk sigOk s
  | .lock req => Sys2Proof.Machine.execLock req s
  | .debugNs req => Sys2Proof.Machine.execDebugNs req s
  | .svnCommit req => Sys2Proof.Machine.execSvnCommit req s
  | .rma req keyOk sigOk => Sys2Proof.Machine.execRma req keyOk sigOk s
  | .revoke req keyOk sigOk => Sys2Proof.Machine.execRevoke req keyOk sigOk s
  | .idcode => Sys2Proof.Machine.execIdcode s
  | .samplePreload => Sys2Proof.Machine.execSamplePreload s
  | .extest => Sys2Proof.Machine.execExtest s
  | .clamp => Sys2Proof.Machine.execClamp s
  | .highz => Sys2Proof.Machine.execHighz s
  | .secmbx => Sys2Proof.Machine.execSecmbx s
  | .dap => Sys2Proof.Machine.execDap s
  | .bypass => Sys2Proof.Machine.execBypass s
  | .dapAccess write addr v => Sys2Proof.Machine.execDapAccess write addr v s
  | .secBeat => Sys2Proof.Machine.execSecBeat s
  | .supplySample mv watts => Sys2Proof.Machine.execSupplySample mv watts s
  | .supplyLevelClear => Sys2Proof.Machine.execSupplyLevelClear s
  | .orderlyStopDeadline => Sys2Proof.Machine.execOrderlyStopDeadline s
  | .brownOut => Sys2Proof.Machine.execBrownOut s
  | .powerStage m => Sys2Proof.Machine.execPowerStage m s
  | .coldStart => Sys2Proof.Machine.execColdStart s
  | .imageVerified a b flashOk => Sys2Proof.Machine.execImageVerified a b flashOk s
  | .startupComplete revision => Sys2Proof.Machine.execStartupComplete revision s
  | .mfrStep kind value failures => Sys2Proof.Machine.execMfrStep kind value failures s
  | .mfrStepAck b0 b1 failures => Sys2Proof.Machine.execMfrStepAck b0 b1 failures s
  | .announceTimeout => Sys2Proof.Machine.execAnnounceTimeout s
  | .reannounce => Sys2Proof.Machine.execReannounce s
  | .telemetry vin iout pout failures => Sys2Proof.Machine.execTelemetry vin iout pout failures s
  | .smbalert status failures => Sys2Proof.Machine.execSmbalert status failures s
  | .pmbusClockTimeout => Sys2Proof.Machine.execPmbusClockTimeout s
  | .grazeEnter f => Sys2Proof.Machine.execGrazeEnter f s
  | .grazeExit f => Sys2Proof.Machine.execGrazeExit f s
  | .powerEntryDone => Sys2Proof.Machine.execPowerEntryDone s
  | .timer => Sys2Proof.Machine.execTimer s
  | .powerExit => Sys2Proof.Machine.execPowerExit s
  | .powerExitDone => Sys2Proof.Machine.execPowerExitDone s
  | .thermalThrottle stk temp => Sys2Proof.Machine.execThermalThrottle stk temp s
  | .thermalRelease stk temp => Sys2Proof.Machine.execThermalRelease stk temp s
  | .thermalTrip stk temp => Sys2Proof.Machine.execThermalTrip stk temp s
  | .powerCapEnforce m => Sys2Proof.Machine.execPowerCapEnforce m s
  | .pwrCapWrite who v => Sys2Proof.Machine.execPwrCapWrite who v s
  | .i3cPrivateRead len => Sys2Proof.Machine.execI3cPrivateRead len s
  | .i3cPrivateWrite bytes => Sys2Proof.Machine.execI3cPrivateWrite bytes s
  | .dynamicAddress a => Sys2Proof.Machine.execDynamicAddress a s
  | .flashWrite who v => Sys2Proof.Machine.execFlashWrite who v s
  | .flashWriteDone compareOk => Sys2Proof.Machine.execFlashWriteDone compareOk s
  | .traceEnable who die v => Sys2Proof.Machine.execTraceEnable who die v s
  | .flush who die v => Sys2Proof.Machine.execFlush who die v s
  | .rearm who die v => Sys2Proof.Machine.execRearm who die v s
  | .trigNow who die v => Sys2Proof.Machine.execTrigNow who die v s
  | .traceFreeze die => Sys2Proof.Machine.execTraceFreeze die s
  | .traceSample => Sys2Proof.Machine.execTraceSample s
  | .traceSync => Sys2Proof.Machine.execTraceSync s
  | .headcountTake who v => Sys2Proof.Machine.execHeadcountTake who v s
  | .headcountWatchdog => Sys2Proof.Machine.execHeadcountWatchdog s
  | .headcountCapture => Sys2Proof.Machine.execHeadcountCapture s
  | .fldPmcWrite who f n v => Sys2Proof.Machine.execFldPmcWrite who f n v s
  | .fldThrFaultClear who f c v => Sys2Proof.Machine.execFldThrFaultClear who f c v s
  | .stkUeLogClear who st v => Sys2Proof.Machine.execStkUeLogClear who st v s
  | .resFaultClear who v => Sys2Proof.Machine.execResFaultClear who v s
  | .fldClampCntRead who f => Sys2Proof.Machine.execFldClampCntRead who f s
  | .mxaGateCntRead who f => Sys2Proof.Machine.execMxaGateCntRead who f s
  | .mxaSpecCntRead who f => Sys2Proof.Machine.execMxaSpecCntRead who f s
  | .vecCntRead who f c => Sys2Proof.Machine.execVecCntRead who f c s
  | .vecRowstsRead who f c => Sys2Proof.Machine.execVecRowstsRead who f c s
  | .fldIssueErrRead who f => Sys2Proof.Machine.execFldIssueErrRead who f s
  | .fldMemErrRead who f => Sys2Proof.Machine.execFldMemErrRead who f s
  | .stkEccCntRead who st => Sys2Proof.Machine.execStkEccCntRead who st s
  | .strErrRead who f => Sys2Proof.Machine.execStrErrRead who f s
  | .strDropRead who f => Sys2Proof.Machine.execStrDropRead who f s
  | .strWatchRead who f => Sys2Proof.Machine.execStrWatchRead who f s
  | .strIdxRead who f => Sys2Proof.Machine.execStrIdxRead who f s
  | .stkWatchRead who st => Sys2Proof.Machine.execStkWatchRead who st s
  | .drvLinkCntRead who p => Sys2Proof.Machine.execDrvLinkCntRead who p s
  | .drvRxErrRead who p => Sys2Proof.Machine.execDrvRxErrRead who p s
  | .drvRxCntRead who p => Sys2Proof.Machine.execDrvRxCntRead who p s
  | .colCntRead who => Sys2Proof.Machine.execColCntRead who s
  | .colDupRead who => Sys2Proof.Machine.execColDupRead who s
  | .resCntRead who => Sys2Proof.Machine.execResCntRead who s
  | .hstCmdErrRead who => Sys2Proof.Machine.execHstCmdErrRead who s
  | .hstCntRead who => Sys2Proof.Machine.execHstCntRead who s
  | .hstNarrowCntRead who => Sys2Proof.Machine.execHstNarrowCntRead who s
  | .hstBoundsCntRead who => Sys2Proof.Machine.execHstBoundsCntRead who s
  | .pwrSupplyRead who => Sys2Proof.Machine.execPwrSupplyRead who s
  | .pwrThermRead who => Sys2Proof.Machine.execPwrThermRead who s
  | .pwrRegRead who => Sys2Proof.Machine.execPwrRegRead who s
  | .pwrCntRead who => Sys2Proof.Machine.execPwrCntRead who s
  | .dbgTrcStsRead who die => Sys2Proof.Machine.execDbgTrcStsRead who die s
  | .powerUp sa sysclk => Sys2Proof.Machine.execPowerUp sa sysclk s
  | .equalisation p lanes => Sys2Proof.Machine.execEqualisation p lanes s
  | .fuseWriteDone words => Sys2Proof.Machine.execFuseWriteDone words s
  | .boost f mhz => Sys2Proof.Machine.execBoost f mhz s
  | .noAckStep watts => Sys2Proof.Machine.execNoAckStep watts s
  | .traceFlushDone die => Sys2Proof.Machine.execTraceFlushDone die s

end Sys2Proof.Machine
end

