-- ==== Sys2Proof/Machine/Tick.lean ====
section
/-!
DEFINITION. Sys2Proof/Machine/Tick.lean: the timebase (R606): one count per tick while the hub is powered; and a recovery
that is complete goes on to the resume (R459).
-/
namespace Sys2Proof.Machine

/-- One tick of the timebase with no command waiting; a device whose own recovery is done votes or, at the root, resumes
(R459; log entry 7). -/
def tick (s : State) : State := if s.hubOn then settle { s with now := s.now + 1 }.tryResume else s

end Sys2Proof.Machine
end

