-- ==== Sys2Proof/Safety.lean ====
section
/-!
DEFINITION. Sys2Proof/Safety.lean: the words in which the statements speak of a safe run: no finding left over, no trace
running, and what a command may touch.
-/
namespace Sys2Proof.Machine

/-- Nothing found by an earlier step waits to be acted on, as between any two steps. -/
abbrev Settled (s : State) : Prop := s.due = []

/-- Neither compute die traces (R638, state OFF): no record is written and no trigger fires. -/
abbrev Untraced (s : State) : Prop := (s.trc 0).phase = .off ∧ (s.trc 1).phase = .off

/-- No fold is asleep in Graze (R550): a write to the store of one that is would wake it. -/
abbrev Awake (s : State) : Prop := ∀ f, (s.fold f).island.graze = false

/-- No port waits in RESET for room in the pool (R361). -/
abbrev Unreset (s : State) : Prop := ∀ p, (s.port p).st ≠ .reset

/-- Thread t issues the instruction word w of major opcode op, which the L1I serves, and its guard holds (R206, R210,
R213). -/
structure Issues (s : State) (t : Tid) (w : W32) (op : Nat) : Prop where
  settled : Settled s
  quiet   : Untraced s
  running : (s.th t).st = .running
  clocked : (s.fold t.fold.val).clocked = true
  fetched : s.fetched t = true
  opcode  : opOf w = op
  guard   : guardHolds (s.th t) w = true

/-- Nothing but one fold differs, and in it nothing but its cores and its event counters FLD_PMC. -/
structure OnlyFold (f : Nat) (s s' : State) : Prop where
  rest  : s' = { s with folds := s'.folds }
  folds : ∀ g, g ≠ f → s'.fold g = s.fold g
  fold  : ∃ cs r, s'.fold f = { s.fold f with cores := cs, regs := r }
    ∧ r = { (s.fold f).regs with pmc := r.pmc, pmcFired := r.pmcFired, pmcAt := r.pmcAt }

/-- Nothing but one core and the event counters of its fold differ: all memory, all other cores, every queue of the fold,
every event slot and every register of the device is as before. -/
structure OnlyCore (f c : Nat) (s s' : State) : Prop extends OnlyFold f s s' where
  cores : ∀ k, k ≠ c → s'.core f k = s.core f k

/-- Nothing but one thread, the memory of which thread of its core issued last, and the event counters of its fold
differ. -/
structure OnlyThread (t : Tid) (s s' : State) : Prop extends OnlyCore t.fold.val t.core.val s s' where
  core    : ∃ ths, s'.core t.fold.val t.core.val = { s.core t.fold.val t.core.val with threads := ths, last := t.thr.val }
  threads : ∀ k, k ≠ t.thr.val → s'.thread t.fold.val t.core.val k = s.thread t.fold.val t.core.val k

/-- The command answers a next state in which thread t stands as given and nothing else differs. -/
def ThreadBecomes (i : Instr) (t : Tid) (s : State) (v : Thread) : Prop :=
  ∃ s', exec i s = .next s' ∧ s'.th t = v ∧ OnlyThread t s s'

/-- The thread with a register written and the PC moved past the instruction (R207: g0 takes no value). -/
def Thread.wrote (v : Thread) (rd : Nat) (x : W64) : Thread := { v.setReg rd x with pc := v.pc + 4 }

/-- The state a core is left in when its thread t, now as given, has given it up: the core's other threads are as
before, but that the next READY one, if there is one, runs (R210). -/
structure GaveUp (t : Tid) (s s' : State) (v : Thread) : Prop extends OnlyCore t.fold.val t.core.val s s' where
  core : ∃ ths, s'.core t.fold.val t.core.val
      = Core.sched { s.core t.fold.val t.core.val with threads := ths, last := t.thr.val }
    ∧ SMap.get {} ths t.thr.val = v
    ∧ ∀ k, k ≠ t.thr.val → SMap.get {} ths k = s.thread t.fold.val t.core.val k

/-- The command answers a next state in which thread t stands as given, has given up its core, and nothing else
differs. -/
def GivesUpCore (i : Instr) (t : Tid) (s : State) (v : Thread) : Prop :=
  ∃ s', exec i s = .next s' ∧ GaveUp t s s' v

/-- What a thread waited for is done: as given but for its state, it is READY again, or runs at once (R210). -/
def Woken (t : Tid) (s' : State) (v : Thread) : Prop :=
  s'.th t = { v with st := .ready, wait := .none } ∨ s'.th t = { v with st := .running, wait := .none }

/-- No other thread's registers, predicates, PC or wait differ. -/
def OthersKeep (t : Tid) (s s' : State) : Prop :=
  ∀ u, u ≠ t → (s'.th u).g = (s.th u).g ∧ (s'.th u).p = (s.th u).p ∧ (s'.th u).pc = (s.th u).pc ∧
    (s'.th u).wait = (s.th u).wait

/-- A thread that waits, moved past its instruction. -/
def Thread.waits (v : Thread) (st : ThSt) (w : Wait) : Thread := { v with pc := v.pc + 4, st := st, wait := w }

/-- Of a port, only what sending touches differs: its queues, its credits and those it has given, the order of service,
sequence numbers and the frames that wait for an acknowledgement (R336, R348, R349). -/
def SendsOnly (x y : Port) : Prop :=
  y = { x with credits := y.credits, adv := y.adv, txq := y.txq, deficit := y.deficit, turn := y.turn, seq := y.seq,
               timeReq := y.timeReq, unacked := y.unacked, fseqOut := y.fseqOut }

/-- Of the collective engine, only the bytes that its instances have sent differ: BYTES_SENT (R414). -/
structure CountsSent (c c' : Col) : Prop where
  rest  : c' = { c with insts := c'.insts, planRec := c'.planRec }
  insts : (c'.insts.map fun x => { x with bytes := 0 }) = c.insts.map fun x => { x with bytes := 0 }
  recs  : ∀ n, n % 8 ≠ 5 → SMap.get 0 c'.planRec n = SMap.get 0 c.planRec n

/-- The same instance but for the bytes it has sent. -/
def SameInst (x y : Option Inst) : Prop := (x.map fun v => { v with bytes := 0 }) = y.map fun v => { v with bytes := 0 }

/-- Nothing but what sending touches on one port, and the bytes counted as sent, differs. -/
structure OnlySends (p : Nat) (s s' : State) : Prop where
  rest  : s' = { s with ports := s'.ports, col := s'.col }
  col   : CountsSent s.col s'.col
  ports : ∀ q, q ≠ p → s'.port q = s.port q
  port  : SendsOnly (s.port p) (s'.port p)

/-- Nothing but what sending touches on the ports, and the bytes counted as sent, differs. -/
structure PortsSend (s s' : State) : Prop where
  rest  : s' = { s with ports := s'.ports, col := s'.col }
  col   : CountsSent s.col s'.col
  ports : ∀ q, SendsOnly (s.port q) (s'.port q)

/-- Port p stands as given, and nothing else differs. -/
structure PortBecomes (p : Nat) (y : Port) (s s' : State) : Prop where
  rest  : s' = { s with ports := s'.ports }
  ports : ∀ q, q ≠ p → s'.port q = s.port q
  port  : s'.port p = y

/-- The state without the packet at the front of a channel's receive buffer. -/
def State.took (s : State) (p vc : Nat) (rest : List Packet) : State :=
  s.setPort p { s.port p with rxq := SMap.set [] (s.port p).rxq vc rest }

/-- The oldest packet in a port's receive buffer for a channel is k, of the kind that a row names, and nothing holds it
back (R351, R353, R357); no gradient that came on the port waits for its instance (R374, R386). -/
structure Received (s : State) (p vc : Nat) (kind : RxKind) (k : Packet) (rest : List Packet) : Prop where
  settled : Settled s
  quiet   : Untraced s
  front   : SMap.get [] (s.port p).rxq vc = k :: rest
  kind    : rxKind k = kind
  free    : s.rxWaiting k = false
  noWait  : ∀ q ∈ SMap.get [] (s.port p).rxq vcGRAD, q.ptype = ptRACC → s.raccWaits q = false

/-- A host command has completed: it waits no more, and its result slot is READY with a status, the command's OP and TAG,
the host state, and result words (R503–R505). -/
structure Completed (c : Cmd) (st : Status) (ws : List W64) (s : State) : Prop where
  gone   : ∀ d ∈ s.host.queue, d.rslot ≠ c.rslot
  ready  : bit (s.resWord c.rslot 0) 48 = true
  status : fld (s.resWord c.rslot 0) 56 8 = st.code
  names  : s.resWord c.rslot 1 = put 0 8 c.op ||| put 8 3 s.hostCode ||| put 32 32 c.tag
  words  : ∀ i, i < 6 → s.resWord c.rslot (2 + i) = wd ws i

/-- Nothing differs but the waiting commands, the result slots and the messages of MSI-X. -/
def OnlyResults (s s' : State) : Prop :=
  s' = { s with host := { s.host with
    queue := s'.host.queue, results := s'.host.results, msi := s'.host.msi, pba := s'.host.pba } }

/-- The command completes with a status and words, and nothing else differs from the given state. -/
def Completes (i : Instr) (s : State) (c : Cmd) (st : Status) (ws : List W64) (t : State) : Prop :=
  ∃ s', exec i s = .next s' ∧ Completed c st ws s' ∧ OnlyResults t s'

/-- A COLD reset with a cause of R570 (R540, R560): the rails are down and the always-on island waits; no job, command,
result, mailbox word or thread is left, no job is kept and FLD_MAP is the fuse map; what the fuses hold stays. -/
structure ColdReset (cause : Nat) (s s' : State) : Prop where
  cause   : s'.pwr.cause = cause
  rails   : s'.hubOn = false ∧ s'.cfg.boot = .aon
  host    : s'.host.st = .offline ∧ s'.host.ready = false ∧ s'.host.queue = []
  results : ∀ i j, s'.resWord i j = 0
  boxes   : ∀ n, (s'.mbox n).full = false
  job     : s'.job = none ∧ s'.cfg.staged = none ∧ s'.res.regs.kept = 0
  idle    : ∀ f c t, (s'.thread f c t).st = .idle
  map     : ∀ n, s'.fldMapReg n = put 0 12 (fuseMap n)
  quiet   : Untraced s'
  fuses   : s'.sec.level = s.sec.level ∧ s'.sec.svnFloor = s.sec.svnFloor ∧ s'.sec.rootRev = s.sec.rootRev
  repairs : ∀ d, (s'.die d).hard = (s.die d).hard

/-- The security core takes request word w next: from private channel 65, or over the JTAG path with the block buffer it
was loaded with; no fuse write is in progress, and its reply has room (R589, R591). The second state is that in which
the request is performed. -/
structure Asks (s : State) (req : Option JtagReq) (w : W64) (t : State) : Prop where
  settled : Settled s
  hub     : s.hubOn = true
  idle    : s.sec.fuse = none
  room    : (s.mbox 67).full = false
  replies : s.sec.replies = []
  path    : match req with
    | none => (s.mbox 65).full = true ∧ w = (s.mbox 65).word ∧ t = s.updMbox 65 fun b => { b with full := false, word := 0 }
    | some r => r.buf.length = 4096 ∧ s.sec.tap = 0x10 ∧ w = r.word ∧ t = { s with sec := { s.sec with buf := r.buf } }

/-- The request was answered on its path with a status code and a value (R589), and besides the reply the state is as
given. -/
def Replies (i : Instr) (s : State) (req : Option JtagReq) (w : W64) (st v : Nat) (t : State) : Prop :=
  let r := put 0 16 (fld w 0 16) ||| put 16 8 st ||| put 24 40 v
  ∃ s', exec i s = .next s' ∧ match req with
    | none => (s'.mbox 67).word = r ∧ (s'.mbox 67).full = true ∧ (s'.mbox 67).sender = 3 ∧
        (∀ n, n ≠ 67 → s'.mbox n = t.mbox n) ∧
        s' = { t with mbx := { t.mbx with boxes := s'.mbx.boxes }, host := { t.host with msi := s'.host.msi, pba := s'.host.pba } }
    | some _ => s' = { t with sec := { t.sec with jtagRep := r } }

end Sys2Proof.Machine
end

