-- ==== Sys2Proof/Certificates/Slice0/Obligations.lean ====
section
/-!
DEFINITION. Sys2Proof/Certificates/Slice0/Obligations.lean: the statements. Each docstring names the rules of the spec it
formalises; what a log entry chose is named as the model's choice.
-/

open Sys2Proof Sys2Proof.Machine

/-! ### The block as a whole -/

/-- The model's queue (first in, first out): a step takes the command at the front and runs it with the queue's rest. -/
def Obligations.StepRunsTheFrontCommand : Prop :=
  ∀ (c : Instr) (rest : List Instr) (s : State), s.pending = c :: rest → step s = exec c { s with pending := rest }

/-- R606, R16, R459: with no command waiting the timebase counts one tick while the hub is powered, and nothing else
changes in a device that is neither RECOVERING nor PAUSED under a RESUME command; while the hub is off nothing changes at
all. In a RECOVERING device whose own recovery is done and whose children have all voted the tick also takes the next
step of the resume: below the root it sends RESUME_VOTE, once, and at the root it resumes: RUNNING, and what the
recovery marked is cleared. That a step on an empty queue is one tick is the model's choice (log entry 7). -/
def Obligations.IdleStepIsOneTick : Prop :=
  ∀ s : State, s.pending = [] →
    let u := { s with now := s.now + 1 }
    let r := s.res
    let votes := s.host.st = .recovering ∧ s.recovered = true ∧ r.resumeSent = false ∧
      ∀ p ∈ resChildren s.resHdr, p ∈ r.resumeV
    let parent := resParent s.resHdr
    (s.hubOn = false → step s = .next s) ∧
    (s.hubOn = true → Settled s → s.host.st ≠ .recovering → (s.host.st = .paused → s.resumeCmd = none) →
      step s = .next u) ∧
    (s.hubOn = true → Settled s → Untraced s → s.ue = [] → votes → parent ≠ 0xF → s.inSvc parent = true →
      ∃ s', step s = .next s' ∧ PortsSend { u with res := { r with resumeSent := true } } s') ∧
    (s.hubOn = true → Settled s → Untraced s → Unreset s → s.ue = [] → votes → parent = 0xF → r.rollNeed = false →
      s.hasStripe = false → ∃ s', step s = .next s' ∧ s'.now = s.now + 1 ∧ s'.host.st = .running ∧
        s'.res.stopped = false ∧ s'.res.resumeSent = false ∧ s'.res.resumeV = [] ∧ s'.res.resumeAt = none)

/-- Reset (R366, R495, R565, R638): the host state is OFFLINE, the trace is off, no port is in service,
DRV_VC_CFG gives RES 16,128 units and weights 7, 7 and 2, VIN_MIN reads 0xFFFF, no command waits, memory is in its
canonical form, and every thread of every core is IDLE. -/
def Obligations.StateAfterReset : Prop :=
  State.reset.host.st = .offline ∧ State.reset.pending = [] ∧ State.reset.due = [] ∧ Untraced State.reset ∧
  (∀ p, (State.reset.port p).st = .down ∧ fld (State.reset.port p).regs.vcCfg 28 14 = 16128 ∧
    fld (State.reset.port p).regs.vcCfg 48 4 = 7 ∧ fld (State.reset.port p).regs.vcCfg 52 4 = 7 ∧
    fld (State.reset.port p).regs.vcCfg 56 4 = 2) ∧
  State.reset.pwr.vinMin = 0xFFFF ∧ Memory.wf State.reset.mem = true ∧ Settled State.reset ∧
  (∀ f c t, (State.reset.thread f c t).st = .idle) ∧ (∀ f n, (State.reset.slot f n).count = 0)

/-! ### Control cores: results (chapter 07) -/

/-- R215 (and R206, R207, R213, R214): ALU writes ra fn rb to rd and moves the PC past itself; nothing else changes but
the event counters. Arithmetic wraps modulo 2^64, shifts use rb[5:0], and CLZ and POPC use ra alone.
R214: ADDI adds the sign-extended immediate, ANDI, ORI and XORI take it zero-extended, SHI shifts by imm12[5:0] in
the kind imm12[7:6], and LUI gives its sign-extended immediate times 2^12; nothing else changes but the PC.
Next states answered for: alu, addi, andi, ori, xori, shi, lui. -/
def Obligations.AluResults : Prop :=
  (∀ (s : State) (t : Tid) (w : W32), Issues s t w 0x01 →
     let a := s.rg t (iRa w)
     let b := s.rg t (iRb w)
     let n := b.toNat % 64
     let result := fun x => ThreadBecomes (.alu t w) t s ((s.th t).wrote (iRd w) x)
     (iFn w = 0x00 → result (BitVec.ofNat 64 (a.toNat + b.toNat))) ∧
     (iFn w = 0x01 → result (BitVec.ofInt 64 ((a.toNat : Int) - b.toNat))) ∧
     (iFn w = 0x02 → result (a &&& b)) ∧ (iFn w = 0x03 → result (a ||| b)) ∧ (iFn w = 0x04 → result (a ^^^ b)) ∧
     (iFn w = 0x05 → result (a &&& ~~~b)) ∧
     (iFn w = 0x08 → result (BitVec.ofNat 64 (a.toNat * 2 ^ n))) ∧
     (iFn w = 0x09 → result (BitVec.ofNat 64 (a.toNat / 2 ^ n))) ∧
     (iFn w = 0x0A → result (BitVec.ofInt 64 (a.toInt / 2 ^ n))) ∧
     (iFn w = 0x0B → result ((a >>> n) ||| (a <<< (64 - n)))) ∧
     (iFn w = 0x10 → result (BitVec.ofNat 64 (a.toNat * b.toNat))) ∧
     (iFn w = 0x11 → result (BitVec.ofNat 64 (a.toNat * b.toNat / 2 ^ 64))) ∧
     (iFn w = 0x12 → result (BitVec.ofInt 64 (a.toInt * b.toInt / 2 ^ 64))) ∧
     (iFn w = 0x18 → result (if a.toInt ≤ b.toInt then a else b)) ∧
     (iFn w = 0x19 → result (if a.toInt ≤ b.toInt then b else a)) ∧
     (iFn w = 0x1A → result (if a.toNat ≤ b.toNat then a else b)) ∧
     (iFn w = 0x1B → result (if a.toNat ≤ b.toNat then b else a)) ∧
     (iFn w = 0x20 → iRb w = 0 → ∃ z, result (BitVec.ofNat 64 z) ∧ z ≤ 64 ∧ a.toNat < 2 ^ (64 - z) ∧
       (z < 64 → 2 ^ (63 - z) ≤ a.toNat)) ∧
     (iFn w = 0x21 → iRb w = 0 → result (BitVec.ofNat 64 ((List.range 64).countP fun i => a.getLsbD i)))) ∧
  (∀ (s : State) (t : Tid) (w : W32),
     let a := s.rg t (iRa w)
     let result := fun i x => ThreadBecomes i t s ((s.th t).wrote (iRd w) x)
     (Issues s t w 0x02 → result (.addi t w) (a + (BitVec.ofNat 12 (iImm12 w)).signExtend 64)) ∧
     (Issues s t w 0x03 → result (.andi t w) (a &&& (BitVec.ofNat 12 (iImm12 w)).zeroExtend 64)) ∧
     (Issues s t w 0x04 → result (.ori t w) (a ||| (BitVec.ofNat 12 (iImm12 w)).zeroExtend 64)) ∧
     (Issues s t w 0x05 → result (.xori t w) (a ^^^ (BitVec.ofNat 12 (iImm12 w)).zeroExtend 64)) ∧
     (Issues s t w 0x06 → ∀ n, n < 64 →
       (iImm12 w = n → result (.shi t w) (a <<< n)) ∧ (iImm12 w = 64 + n → result (.shi t w) (a >>> n)) ∧
       (iImm12 w = 128 + n → result (.shi t w) (a.sshiftRight n)) ∧
       (iImm12 w = 192 + n → result (.shi t w) ((a >>> n) ||| (a <<< (64 - n))))) ∧
     (Issues s t w 0x07 → result (.lui t w) ((BitVec.ofNat 17 (iImm17 w)).signExtend 64 <<< 12)))

/-- R214, R216: CMP, CMPI and PRED write predicate pd (p0 takes no value, R207) and move the PC; nothing else changes.
CMPI compares with its sign-extended immediate.
Next states answered for: cmp, cmpi, pred. -/
def Obligations.PredicateResults : Prop :=
  ∀ (s : State) (t : Tid) (w : W32),
    let result := fun i q => ThreadBecomes i t s { (s.th t).setPred (iPd w) q with pc := (s.th t).pc + 4 }
    let compares := fun i (a b : W64) =>
      (iCc w = 0x0 → result i (a == b)) ∧ (iCc w = 0x1 → result i (a != b)) ∧
      (iCc w = 0x2 → result i (decide (a.toInt < b.toInt))) ∧ (iCc w = 0x3 → result i (decide (a.toInt ≤ b.toInt))) ∧
      (iCc w = 0x4 → result i (decide (b.toInt < a.toInt))) ∧ (iCc w = 0x5 → result i (decide (b.toInt ≤ a.toInt))) ∧
      (iCc w = 0x6 → result i (decide (a.toNat < b.toNat))) ∧ (iCc w = 0x7 → result i (decide (a.toNat ≤ b.toNat))) ∧
      (iCc w = 0x8 → result i (decide (b.toNat < a.toNat))) ∧ (iCc w = 0x9 → result i (decide (b.toNat ≤ a.toNat))) ∧
      (iCc w = 0xA → result i (a &&& b != 0)) ∧ (iCc w = 0xB → result i (a &&& b == 0))
    (Issues s t w 0x0A → fld w 0 5 = 0 → compares (.cmp t w) (s.rg t (iCRa w)) (s.rg t (iCRb w))) ∧
    (Issues s t w 0x0B → compares (.cmpi t w) (s.rg t (iCRa w)) ((BitVec.ofNat 10 (iImm10 w)).signExtend 64)) ∧
    (Issues s t w 0x0C → fld w 0 10 = 0 →
      let a := (s.th t).pred (iPa w)
      let b := (s.th t).pred (iPb w)
      (iPFn w = 0 → result (.pred t w) (a && b)) ∧ (iPFn w = 1 → result (.pred t w) (a || b)) ∧
      (iPFn w = 2 → result (.pred t w) (a ^^ b)) ∧ (iPFn w = 3 → result (.pred t w) (a && !b)))

/-- R207: g0 reads as zero and p0 reads as 1, and writes to either are discarded; a write to any other register or
predicate is what it then reads, and every other one keeps its value. -/
def Obligations.RegisterFile : Prop :=
  ∀ (v : Thread) (i rd : Nat) (x : W64) (b : Bool), i < 32 → rd < 32 →
    v.reg 0 = 0 ∧ v.pred 0 = true ∧ v.setReg 0 x = v ∧ v.setPred 0 b = v ∧
    (v.setReg rd x).reg i = (if i = rd ∧ rd ≠ 0 then x else v.reg i) ∧
    (i < 8 → rd < 8 → (v.setPred rd b).pred i = if i = rd ∧ rd ≠ 0 then b else v.pred i)

/-- R209, R212, R214, R217: BR, CALL and JR move the PC (CALL and JR with fn 1 save the next address in g31); MFS reads
the special registers; EVCNT reads a slot's COUNT; MARK and FENCE.I only move the PC of the thread, FENCE.I emptying
the core's L1I; a fence with no buffered store of its thread outstanding completes at once, and FENCE.D then gives its
core the fold's next epoch (R263).
Next states answered for: br, call, jr, evcnt, fenceF, fenceD, fenceI, mfs, mark. -/
def Obligations.ControlFlowAndSpecialRegisters : Prop :=
  ∀ (s : State) (t : Tid) (w : W32),
    let v := s.th t
    let c := s.core t.fold.val t.core.val
    let target := v.pc + ((BitVec.ofNat 22 (iOff22 w)).signExtend 48) <<< 2
    let link := (v.pc + 4).zeroExtend 64
    (Issues s t w 0x20 → ThreadBecomes (.br t w) t s { v with pc := target }) ∧
    (Issues s t w 0x21 → ThreadBecomes (.call t w) t s { v.setReg 31 link with pc := target }) ∧
    (Issues s t w 0x22 → iRd w = 0 → iRb w = 0 →
      (iFn w = 0 → ThreadBecomes (.jr t w) t s { v with pc := (v.reg (iRa w)).truncate 48 }) ∧
      (iFn w = 1 → ThreadBecomes (.jr t w) t s { v.setReg 31 link with pc := (v.reg (iRa w)).truncate 48 })) ∧
    (Issues s t w 0x39 → iRa w = 0 →
      let reads := fun x => ThreadBecomes (.mfs t w) t s (v.wrote (iRd w) x)
      (iSel w = 0 → reads (BitVec.ofNat 64 t.thr.val)) ∧ (iSel w = 1 → reads (BitVec.ofNat 64 t.core.val)) ∧
      (iSel w = 2 → ∀ n, s.logicalOf t.fold.val = some n → reads (BitVec.ofNat 64 n)) ∧
      (iSel w = 3 → reads (BitVec.ofNat 64 t.fold.val)) ∧
      (iSel w = 4 → reads (BitVec.ofNat 64 (1024 + 8 * t.fold.val + t.core.val))) ∧
      (iSel w = 0x10 → reads (BitVec.ofNat 64 s.now)) ∧
      (iSel w = 0x11 → reads (BitVec.ofNat 64 (s.cyclesOf t.fold.val))) ∧
      (iSel w = 0x20 → reads s.res.regs.commitGlb)) ∧
    (Issues s t w 0x34 → iRa w = 0 → iN w = 0 →
      ThreadBecomes (.evcnt t w) t s (v.wrote (iRd w) (BitVec.ofNat 64 (s.slot t.fold.val (iSlot w)).count))) ∧
    (Issues s t w 0x3A → iRd w = 0 → ThreadBecomes (.mark t w) t s { v with pc := v.pc + 4 }) ∧
    (Issues s t w 0x38 → iRd w = 0 → iRa w = 0 → (∀ e ∈ c.sb, e.thr ≠ t.thr.val) →
      (iSel w = 0 → ThreadBecomes (.fenceF t w) t s { v with pc := v.pc + 4 }) ∧
      (iSel w = 2 → ∃ s', exec (.fenceI t w) s = .next s' ∧ s'.th t = { v with pc := v.pc + 4 } ∧
        OnlyCore t.fold.val t.core.val s s' ∧ (s'.core t.fold.val t.core.val).l1i = []) ∧
      (iSel w = 1 → ∃ s', exec (.fenceD t w) s = .next s' ∧ s'.th t = { v with pc := v.pc + 4 } ∧
        (s'.fold t.fold.val).epoch = (s.fold t.fold.val).epoch + 1 ∧
        (s'.core t.fold.val t.core.val).epoch = (s.fold t.fold.val).epoch + 1 ∧
        (s'.core t.fold.val t.core.val).l1d = c.l1d ∧ s'.mem = s.mem))

/-! ### Control cores: scheduling, memory, slots (chapters 07 and 08) -/

/-- R210: when no thread of a core runs, the first READY thread in ascending number after the one that issued last runs,
wrapping from T7 to T0; nothing else of the core changes. While one runs, or none is READY, nothing changes. -/
def Obligations.CoreSchedulesInTurn : Prop :=
  ∀ x : Core,
    ((∃ p ∈ x.threads, p.2.st = .running) → x.sched = x) ∧
    ((∀ k, k < 8 → (SMap.get {} x.threads k).st ≠ .ready) → x.sched = x) ∧
    ((∀ p ∈ x.threads, p.2.st ≠ .running) → ∀ i, i < 8 →
      let k := (x.last + 1 + i) % 8
      (SMap.get {} x.threads k).st = .ready →
      (∀ j, j < i → (SMap.get {} x.threads ((x.last + 1 + j) % 8)).st ≠ .ready) →
      SMap.get {} x.sched.threads k = { SMap.get {} x.threads k with st := .running } ∧
      (∀ m, m ≠ k → SMap.get {} x.sched.threads m = SMap.get {} x.threads m) ∧
      x.sched = { x with threads := x.sched.threads })

/-- R213: an instruction whose guard is false takes its issue cycle and moves the PC; nothing else changes. It is stated of
every instruction word that R218 lets pass.
R218, R237, R241, R242: a word whose opcode R214 does not list faults its thread with cause UNSUPPORTED whatever its
guard: the thread is FAULTED at its PC, FLD_THR_FAULT holds the cause, thread and PC where no fault was recorded and
counts it in MORE where one was, FLD_THR_FADDR is zero, and no memory and no other thread's registers change. It is stated of a device
whose job is not running, paused or recovering, where no stop follows (R457). -/
def Obligations.WordsNotExecuted : Prop :=
  (∀ (s : State) (t : Tid) (w : W32), Settled s → Untraced s → (s.th t).st = .running →
     (s.fold t.fold.val).clocked = true → s.fetched t = true → guardHolds (s.th t) w = false →
     let skips := fun i => ThreadBecomes i t s { s.th t with pc := (s.th t).pc + 4 }
     (opOf w = 0x01 → knownFn (iFn w) = true → (0x20 ≤ iFn w → iRb w = 0) → skips (.alu t w)) ∧
     (opOf w = 0x02 → skips (.addi t w)) ∧ (opOf w = 0x03 → skips (.andi t w)) ∧ (opOf w = 0x04 → skips (.ori t w)) ∧
     (opOf w = 0x05 → skips (.xori t w)) ∧ (opOf w = 0x06 → fld w 8 4 = 0 → skips (.shi t w)) ∧
     (opOf w = 0x07 → skips (.lui t w)) ∧ (opOf w = 0x08 → skips (.ldpc t w)) ∧
     (opOf w = 0x0A → iCc w ≤ 0xB → fld w 0 5 = 0 → skips (.cmp t w)) ∧
     (opOf w = 0x0B → iCc w ≤ 0xB → skips (.cmpi t w)) ∧
     (opOf w = 0x0C → iPFn w ≤ 3 → fld w 0 10 = 0 → skips (.pred t w)) ∧
     (0x10 ≤ opOf w → opOf w ≤ 0x13 → skips (.ldz t w)) ∧ (0x14 ≤ opOf w → opOf w ≤ 0x16 → skips (.lds t w)) ∧
     (0x18 ≤ opOf w → opOf w ≤ 0x1B → skips (.sto t w)) ∧ (opOf w = 0x1C → iFn w ≤ 9 → skips (.amo t w)) ∧
     (opOf w = 0x20 → skips (.br t w)) ∧ (opOf w = 0x21 → skips (.call t w)) ∧
     (opOf w = 0x22 → iFn w ≤ 1 → iRd w = 0 → iRb w = 0 → skips (.jr t w)) ∧
     (opOf w = 0x28 → iFn w < 64 → skips (.spawn t w)) ∧
     (opOf w = 0x29 → iRd w = 0 → iRa w = 0 → iSel w = 0 → skips (.halt t w)) ∧
     (opOf w = 0x2A → iRd w = 0 → iRa w = 0 → iSel w = 0 → skips (.yield t w)) ∧
     (opOf w = 0x30 → fld w 6 2 = 0 → skips (.issue t w)) ∧ (opOf w = 0x31 → iN w ≠ 0 → skips (.evwait t w)) ∧
     (opOf w = 0x32 → iRa w = 0 → skips (.evsig t w)) ∧ (opOf w = 0x33 → skips (.evsigr t w)) ∧
     (opOf w = 0x34 → iRa w = 0 → iN w = 0 → skips (.evcnt t w)) ∧
     (opOf w = 0x38 → iRd w = 0 → iRa w = 0 → iSel w ≤ 2 →
       skips (.fenceF t w) ∧ skips (.fenceD t w) ∧ skips (.fenceI t w)) ∧
     (opOf w = 0x39 → knownSel (iSel w) = true → iRa w = 0 → skips (.mfs t w)) ∧
     (opOf w = 0x3A → iRd w = 0 → skips (.mark t w))) ∧
  (∀ (s : State) (t : Tid) (w : W32), Settled s → Untraced s → (s.th t).st = .running →
     (s.fold t.fold.val).clocked = true → s.fetched t = true → s.jobLive = false → listedOp (opOf w) = false → (s.th t).wait = .none →
     ∃ s', exec (.alu t w) s = .next s' ∧ s'.th t = { s.th t with st := .faulted } ∧ OthersKeep t s s' ∧
       OnlyCore t.fold.val t.core.val s s' ∧
       let r := (s.core t.fold.val t.core.val).regs
       let r' := (s'.core t.fold.val t.core.val).regs
       (bit r.thrFault 11 = false → fld r'.thrFault 0 8 = 0x0F ∧ fld r'.thrFault 8 3 = t.thr.val ∧
         bit r'.thrFault 11 = true ∧ fld r'.thrFault 12 4 = 0 ∧ fld r'.thrFault 16 48 = (s.th t).pc.toNat ∧
         r'.thrFaddr = 0) ∧
       (bit r.thrFault 11 = true → r'.thrFault = bumpFld r.thrFault 12 4 1 ∧ r'.thrFaddr = r.thrFaddr))

/-- R214, R231, R236, R245: a load whose address passes the checks gets its value from the L1D line that serves it, with the
core's own buffered stores laid over (R232), zero- or sign-extended; one that the L1D does not serve, or that goes to
register space, gives up the core and waits.
Next states answered for: ldpc, ldz, lds. -/
def Obligations.Loads : Prop :=
  ∀ (s : State) (t : Tid) (w : W32) (i : Instr) (op size : Nat) (signed : Bool) (a : W64), Issues s t w op →
    (i, op, size, signed, a) ∈
      (let m := s.rg t (iRa w) + (BitVec.ofNat 12 (iImm12 w)).signExtend 64
       [(.ldz t w, 0x10, 1, false, m), (.ldz t w, 0x11, 2, false, m), (.ldz t w, 0x12, 4, false, m),
        (.ldz t w, 0x13, 8, false, m), (.lds t w, 0x14, 1, true, m), (.lds t w, 0x15, 2, true, m),
        (.lds t w, 0x16, 4, true, m),
        (.ldpc t w, 0x08, 8, false, BitVec.ofNat 64 ((s.th t).pc.toNat / 8 * 8)
          + (BitVec.ofNat 17 (iImm17 w)).signExtend 64 <<< 3)]) →
    s.accessFault t .read a size = .ok →
    (isRegSpace a.toNat = true → GivesUpCore i t s ((s.th t).waits .waitMem (.regRead a.toNat (iRd w)))) ∧
    (isRegSpace a.toNat = false → s.l1dHit t.fold.val t.core.val a.toNat = none →
      GivesUpCore i t s ((s.th t).waits .waitMem (.load a.toNat size (iRd w) signed))) ∧
    (isRegSpace a.toNat = false → ∀ l, s.l1dHit t.fold.val t.core.val a.toNat = some l → l.data.length = 64 →
      let n := leNat (overlay (s.core t.fold.val t.core.val).sb a.toNat ((l.data.drop (a.toNat - l.addr)).take size))
      ThreadBecomes i t s ((s.th t).wrote (iRd w)
        (if signed then (BitVec.ofNat (8 * size) n).signExtend 64 else BitVec.ofNat 64 n)))

/-- R210, R214, R235, R236: a store whose address passes the checks goes into the core's store buffer, behind what is there; with
the buffer's 16 entries full, or to register space, the thread gives up the core and waits. An AMO whose address passes
the checks for reading and writing, and is not in register space, always does, with its operand rb and its compare value rd.
Next states answered for: sto, amo. -/
def Obligations.StoresAndAtomics : Prop :=
  ∀ (s : State) (t : Tid) (w : W32),
    let c := s.core t.fold.val t.core.val
    (∀ k, k < 4 → Issues s t w (0x18 + k) →
      let a := s.rg t (iRa w) + (BitVec.ofNat 12 (iImm12 w)).signExtend 64
      let v := s.rg t (iRd w)
      s.accessFault t .write a (2 ^ k) = .ok →
      (isRegSpace a.toNat = true → GivesUpCore (.sto t w) t s ((s.th t).waits .waitMem (.regWrite a.toNat v))) ∧
      (isRegSpace a.toNat = false → 16 ≤ c.sb.length →
        GivesUpCore (.sto t w) t s ((s.th t).waits .waitMem (.store a.toNat (2 ^ k) v))) ∧
      (isRegSpace a.toNat = false → c.sb.length < 16 →
        ∃ s', exec (.sto t w) s = .next s' ∧ s'.th t = { s.th t with pc := (s.th t).pc + 4 } ∧
          OnlyCore t.fold.val t.core.val s s' ∧
          (s'.core t.fold.val t.core.val).sb = c.sb ++ [⟨t.thr.val, a.toNat, 2 ^ k, v⟩] ∧
          (∀ u, u ≠ t → s'.th u = s.th u))) ∧
    (Issues s t w 0x1C → iFn w ≤ 9 →
      let a := s.rg t (iRa w)
      isRegSpace a.toNat = false → s.accessFault t .read a 8 = .ok → s.accessFault t .write a 8 = .ok →
      GivesUpCore (.amo t w) t s
        ((s.th t).waits .waitMem (.amo a.toNat (iFn w) (s.rg t (iRb w)) (s.rg t (iRd w)) (iRd w))))

/-- R209, R210, R214: SPAWN answers OK, BUSY where the named thread is not IDLE, or BOUNDS where a core other than C0 names
another core, and starts the thread only with OK: at PC = ra with g1 = rb and every other register and predicate zero.
HALT makes its thread IDLE, and YIELD leaves it READY; both give up the core.
Next states answered for: spawn, halt, yield. -/
def Obligations.SpawnHaltYield : Prop :=
  ∀ (s : State) (t : Tid) (w : W32),
    (Issues s t w 0x28 → iFn w < 64 → ∀ u : Tid, u.fold = t.fold → u.core.val = iFn w / 8 → u.thr.val = iFn w % 8 →
      let rd := fun x => (s.th t).wrote (iRd w) x
      (t.core.val ≠ 0 → u.core ≠ t.core → ThreadBecomes (.spawn t w) t s (rd 0x03)) ∧
      ((t.core.val = 0 ∨ u.core = t.core) → (s.th u).st ≠ .idle → ThreadBecomes (.spawn t w) t s (rd 0x09)) ∧
      ((t.core.val = 0 ∨ u.core = t.core) → (s.th u).st = .idle →
        ∃ s', exec (.spawn t w) s = .next s' ∧ s'.th t = rd 0 ∧ OnlyFold t.fold.val s s' ∧
          Woken u s' (({ pc := (s.rg t (iRa w)).truncate 48 } : Thread).setReg 1 (s.rg t (iRb w))) ∧
          ∀ x, x ≠ t → x ≠ u → (s'.th x).g = (s.th x).g ∧ (s'.th x).p = (s.th x).p ∧ (s'.th x).pc = (s.th x).pc)) ∧
    (Issues s t w 0x29 → iRd w = 0 → iRa w = 0 → iSel w = 0 →
      GivesUpCore (.halt t w) t s { s.th t with pc := (s.th t).pc + 4, st := .idle }) ∧
    (Issues s t w 0x2A → iRd w = 0 → iRa w = 0 → iSel w = 0 →
      GivesUpCore (.yield t w) t s ((s.th t).waits .ready .none))

/-- R219, R220, R221, R234: ISSUE performs the buffered stores of its core and then waits for the engine, in the order of
its fold's issuers by cycle and core; with NB = 1 and the
queue full it answers BUSY, with TGT in rd[9:8], and the thread is READY at once.
R86, R219, R221, R222, R223, R224: an ISSUE to the matmul, chain or stream queue ends when the queue has room and no
earlier one for it still waits. A descriptor
that passes its checks joins the queue's end with its words as read, its gate and the queue's ticket; rd receives OK,
TGT and the ticket, and the next ticket is one more, modulo 2^32. One that fails queues nothing, rd receives its status
and TGT, and FLD_ISSUE_ERR records it if it held nothing.
Next states answered for: issue, issueDone. -/
def Obligations.Issue : Prop :=
  (∀ (s : State) (t : Tid) (w : W32), Issues s t w 0x30 → fld w 6 2 = 0 →
     let a := s.rg t (iRa w)
     let full := s.queueFull t.fold.val t.core.val (iTgt w)
     let waiting := (s.th t).waits .waitIssue (.issue a.toNat (iImm12 w) (iRd w))
     ((s.core t.fold.val t.core.val).sb = [] → (iNB w && full) = false →
       ∃ s', exec (.issue t w) s = .next s' ∧ GaveUp t (s.updFold t.fold.val fun v => { v with
         arrived := insArrival (v.arrived.filter fun x => x.2 ≠ (t.core.val, t.thr.val))
           (s.cyclesOf t.fold.val, t.core.val, t.thr.val) }) s' waiting) ∧
     ((s.core t.fold.val t.core.val).sb = [] → (iNB w && full) = true →
       GivesUpCore (.issue t w) t s { (s.th t).wrote (iRd w) (BitVec.ofNat 64 (0x09 + 256 * iTgt w)) with
         st := .ready, wait := .none }) ∧
     (s.ue = [] → iNB w = false → ∃ s', exec (.issue t w) s = .next s' ∧ s'.th t = waiting ∧
       (s'.core t.fold.val t.core.val).sb = [])) ∧
  (∀ (s : State) (t : Tid) (addr efld rd : Nat), Settled s → Untraced s → s.ue = [] →
     (s.th t).wait = .issue addr efld rd → efld < 4096 → addr < 2 ^ 48 → (s.fold t.fold.val).clocked = true →
     let f := t.fold.val
     let c := t.core.val
     let w : W32 := BitVec.ofNat 32 efld
     let st := s.issueCheck f c (iTgt w) (iG w) addr (s.blockWords addr)
     iTgt w < 3 → s.queueFull f c (iTgt w) = false → s.issueTurn f c t.thr.val = true →
     let queue := fun (x : State) => match iTgt w with
       | 0 => (x.fold f).matQ
       | 1 => (x.core f c).chainQ
       | _ => (x.fold f).strQ
     let ticket := s.nextTicket f c (iTgt w)
     (st = .ok → ∃ s' e, exec (.issueDone t) s = .next s' ∧
       Woken t s' ((s.th t).setReg rd (put 8 2 (iTgt w) ||| put 32 32 ticket)) ∧
       queue s' = queue s ++ [e] ∧ e.words = s.blockWords addr ∧ e.ticket = ticket ∧ e.core = c ∧ e.thr = t.thr.val ∧
       e.gate = (if iG w then some (iGslot w) else none) ∧ s'.nextTicket f c (iTgt w) = (ticket + 1) % 2 ^ 32 ∧
       s'.mem = s.mem ∧ OthersKeep t s s') ∧
     (st ≠ .ok → ∃ s', exec (.issueDone t) s = .next s' ∧
       Woken t s' ((s.th t).setReg rd (put 0 8 st.code ||| put 8 2 (iTgt w))) ∧
       queue s' = queue s ∧ s'.nextTicket f c (iTgt w) = ticket ∧
       (fld (s.fold f).regs.issueErr 0 8 = 0 → (s'.fold f).regs.issueErr
         = put 0 8 st.code ||| put 8 3 c ||| put 11 3 t.thr.val ||| put 14 2 (iTgt w) ||| put 16 48 addr) ∧
       (fld (s.fold f).regs.issueErr 0 8 ≠ 0 → (s'.fold f).regs.issueErr = (s.fold f).regs.issueErr) ∧
       s'.mem = s.mem ∧ OthersKeep t s s'))

/-- R225, R226, R227: an EVWAIT on a slot on which nothing waits and whose COUNT is at least N subtracts N and writes OK to
rd. Any other joins the end of the slot's order and gives up the core, with its timeout in ticks from now where ra is
not zero. A timeout writes TIMEOUT to rd, leaves COUNT as it is, and takes the waiter out of the order.
R225, R226, R227, R234: EVSIG on a slot without waiters adds N to its COUNT, which stays at 65,535 where the sum would
exceed it and then sets OVF; EVSIGR does so for the fold on which a logical fold of this device runs and answers OK,
and answers RESERVED_NONZERO, BOUNDS or LINK_DOWN in this order for a bad target word, and then signals nothing.
Next states answered for: evwait, evwaitTimeout, evsig, evsigr. -/
def Obligations.Events : Prop :=
  (∀ (s : State) (t : Tid) (w : W32),
     let f := t.fold.val
     let n := iSlot w
     let e := s.slot f n
     let me := Waiter.thread t.core.val t.thr.val (iN w)
     let limit := (s.rg t (iRa w)).toNat
     (Issues s t w 0x31 → iN w ≠ 0 → e.waiters = [] → iN w ≤ e.count →
       ∃ s', exec (.evwait t w) s = .next s' ∧ s'.th t = (s.th t).wrote (iRd w) 0 ∧
         s'.slot f n = { e with count := e.count - iN w } ∧ (∀ m, m ≠ n → s'.slot f m = s.slot f m) ∧
         (∀ u, u ≠ t → s'.th u = s.th u) ∧ s'.mem = s.mem) ∧
     (Issues s t w 0x31 → iN w ≠ 0 → (e.waiters ≠ [] ∨ e.count < iN w) → me ∉ e.waiters →
       ∃ s', exec (.evwait t w) s = .next s' ∧
         s'.th t = (s.th t).waits .waitEvent
           (.event n (iN w) (iRd w) s.now (if limit = 0 then none else some (s.now + limit))) ∧
         s'.slot f n = { e with waiters := e.waiters ++ [me] } ∧ (∀ m, m ≠ n → s'.slot f m = s.slot f m) ∧
         OthersKeep t s s' ∧ s'.mem = s.mem) ∧
     (∀ k m rd since due, Settled s → Untraced s → (s.th t).wait = .event m k rd since (some due) →
       (s.slot f m).waiters = [.thread t.core.val t.thr.val k] →
       ∃ s', exec (.evwaitTimeout t) s = .next s' ∧ Woken t s' ((s.th t).setReg rd 0x0B) ∧
         s'.slot f m = { s.slot f m with waiters := [] } ∧ s'.now = max s.now due ∧ OthersKeep t s s' ∧ s'.mem = s.mem)) ∧
  (∀ (s : State) (t : Tid) (w : W32), (s.core t.fold.val t.core.val).sb = [] →
     let f := t.fold.val
     let target := s.rg t (iRa w)
     let adds := fun (i : Instr) (g : Nat) => (s.slot g (iSlot w)).waiters = [] →
       let e := s.slot g (iSlot w)
       ∃ s', exec i s = .next s' ∧ s'.th t = (s.th t).wrote (iRd w) 0 ∧
         s'.slot g (iSlot w) = { e with count := min (e.count + iN w) 65535,
                                        ovf := e.ovf || decide (65535 < e.count + iN w) } ∧
         (∀ h m, h ≠ g ∨ m ≠ iSlot w → s'.slot h m = s.slot h m) ∧ (∀ u, u ≠ t → s'.th u = s.th u) ∧ s'.mem = s.mem
     let refuses := fun (st : Status) => ∃ s', exec (.evsigr t w) s = .next s' ∧
       s'.th t = (s.th t).wrote (iRd w) (BitVec.ofNat 64 st.code) ∧ (∀ h m, s'.slot h m = s.slot h m) ∧
       s'.ports = s.ports ∧ (∀ u, u ≠ t → s'.th u = s.th u) ∧ s'.mem = s.mem
     let reserved := fld target 18 46 ≠ 0 ∨ (fld target 12 4 = 0 ∧ fld target 16 2 ≠ 0)
     let outside := 319 < fld target 0 12 ∨ 6 < fld target 12 4
     (Issues s t w 0x32 → iRa w = 0 → adds (.evsig t w) f) ∧
     (Issues s t w 0x33 → reserved → refuses .reservedNonzero) ∧
     (Issues s t w 0x33 → ¬ reserved → outside → refuses .bounds) ∧
     (Issues s t w 0x33 → ¬ reserved → ¬ outside → fld target 12 4 ≠ 0 → s.inSvc (fld target 12 4 - 1) = false →
       refuses .linkDown) ∧
     (Issues s t w 0x33 → ¬ reserved → ¬ outside → fld target 12 4 = 0 → iN w ≠ 0 →
       (s.fold (s.physOf (fld target 0 12))).island.graze = false → adds (.evsigr t w) (s.physOf (fld target 0 12))))

/-- R233, R245, R261, R262, R263: what completes a wait for memory. A load's data, taken from memory where no cache holds the line,
goes to rd with the core's own buffered stores laid over it; an instruction line is then held by the L1I; a freed
store-buffer entry has been performed, so its bytes read back; an AMO returns the old value and leaves the new one in
memory; a fence ends with the core's buffer empty. It is stated with no error in memory but those that the read itself meets and
can correct or fetch again (R267, R268), and no fold asleep in Graze (R18).
R210, R236: an access to register space that completes is performed under the core's agent number; a read's value goes
to rd, and the thread is READY again. It is stated for the registers that only hold what is written to them.
Next states answered for: fenceDone, loadDataReturn, instructionFetchReturn, storeBufferFree, amoReturn,
registerAccessDone. -/
def Obligations.MemoryCompletions : Prop :=
  (∀ (s : State) (t : Tid), Settled s → Untraced s → s.ue = [] → (s.fold t.fold.val).clocked = true →
     let f := t.fold.val
     let c := t.core.val
     let x := s.core f c
     (∀ a size rd signed refetch corrected, (s.th t).wait = .load a size rd signed → s.asleep f a = false → (s.fold f).fcSize = 0 → a % size = 0 →
       size ∈ [1, 2, 4, 8] →
       let n := leNat (overlay x.sb a (s.readBytes a size))
       ∃ s', exec (.loadDataReturn t [] refetch corrected) s = .next s' ∧
         Woken t s' ((s.th t).setReg rd (if signed then (BitVec.ofNat (8 * size) n).signExtend 64
           else BitVec.ofNat 64 n)) ∧ OthersKeep t s s' ∧ s'.mem = s.mem) ∧
     ((s.th t).wait = .fetch → s.asleep f (s.th t).pc.toNat = false →
       ∀ refetch corrected, ∃ s', exec (.instructionFetchReturn t [] refetch corrected) s = .next s' ∧ Woken t s' (s.th t) ∧
         (s.th t).pc.toNat / 64 * 64 ∈ (s'.core f c).l1i ∧ OthersKeep t s s' ∧ s'.mem = s.mem) ∧
     (∀ e rest, x.sb = e :: rest → x.storeWaiter = none → s.asleep f e.addr = false →
       ∃ s', exec (.storeBufferFree t.fold t.core) s = .next s' ∧ (s'.core f c).sb = rest ∧
         s'.mem = putBytes s.mem e.addr (leBytes e.size e.val.toNat) ∧ ∀ u, s'.th u = s.th u) ∧
     (∀ a fn val cmp rd, (s.th t).wait = .amo a fn val cmp rd → x.sb = [] → s.asleep f a = false →
       ∃ s', exec (.amoReturn t) s = .next s' ∧ Woken t s' ((s.th t).setReg rd (s.readWord a)) ∧
         s'.mem = putBytes s.mem a (leBytes 8 (amoOp fn (s.readWord a) val cmp).toNat) ∧ OthersKeep t s s') ∧
     (∀ kind, (s.th t).wait = .fence kind → s.asleep f 0 = false → (∀ e ∈ x.sb, s.asleep f e.addr = false) →
       ∃ s', exec (.fenceDone t) s = .next s' ∧ Woken t s' (s.th t) ∧ (s'.core f c).sb = [] ∧
         (kind = 1 → (s'.core f c).epoch = (s.fold f).epoch + 1) ∧ OthersKeep t s s')) ∧
  (∀ (s : State) (t : Tid) (f : FoldNo) (c : Fin 8) (v : W64) (rd : Nat), Settled s →
     let srMb := fregBase + fregSlot * f.val + 0x22C0 + 8 * c.val
     s.asleep t.fold.val srMb = false →
     ((s.th t).wait = .regWrite srMb v →
       ∃ s', exec (.registerAccessDone t) s = .next s' ∧ Woken t s' (s.th t) ∧
         (s'.core f.val c.val).regs.srMb = put 0 13 (fld v 0 13) ||| put 16 6 (fld v 16 6) ∧ OthersKeep t s s' ∧
         s'.mem = s.mem) ∧
     ((s.th t).wait = .regRead srMb rd →
       ∃ s', exec (.registerAccessDone t) s = .next s' ∧
         Woken t s' ((s.th t).setReg rd (s.core f.val c.val).regs.srMb) ∧ OthersKeep t s s' ∧ s'.mem = s.mem))

/-! ### Registers: reads that clear, writes that clear (access types RC and W1C) -/

/-- R103, R143, R144, R180, R205, R243, R278, R325–R328: each of these reads of a fold's register window by a requester whom
R41 lets in answers the register and clears it (VEC_ROWSTS only bits 47:16), and changes nothing else; a fold in Graze
would first wake (R552). A read of a
fold that is not in service, by anyone but the shepherd and the security core, answers all-ones, counts a host's in
HST_BOUNDS_CNT and clears nothing (R41, R486).
Next states answered for: fldClampCntRead, mxaGateCntRead, mxaSpecCntRead, vecCntRead, vecRowstsRead,
fldIssueErrRead, fldMemErrRead, strErrRead, strDropRead, strWatchRead, strIdxRead. -/
def Obligations.FoldReadsThatClear : Prop :=
  ∀ (s : State) (who : Nat) (f : FoldNo) (c : Fin 8), Settled s → s.hubOn = true → (who = 1 → s.host.ready = true) →
    let r := (s.fold f.val).regs
    let x := (s.core f.val c.val).regs
    let reads := fun (i : Instr) (v : W64) (g : FoldRegs → FoldRegs) =>
      exec i s = .next ((s.foldRegs f.val g).answerWord v)
    let readsCore := fun (i : Instr) (v : W64) (g : CoreRegs → CoreRegs) =>
      exec i s = .next ((s.coreRegs f.val c.val g).answerWord v)
    ((s.inService f.val = true ∨ who = 2 ∨ who = 3) → (s.fold f.val).island.graze = false →
      reads (.fldClampCntRead who f) r.clampCnt (fun r => { r with clampCnt := 0 }) ∧
      reads (.mxaGateCntRead who f) r.gateCnt (fun r => { r with gateCnt := 0 }) ∧
      reads (.mxaSpecCntRead who f) r.specCnt (fun r => { r with specCnt := 0 }) ∧
      reads (.fldIssueErrRead who f) r.issueErr (fun r => { r with issueErr := 0 }) ∧
      reads (.fldMemErrRead who f) r.memErr (fun r => { r with memErr := 0 }) ∧
      reads (.strErrRead who f) r.strErr (fun r => { r with strErr := 0 }) ∧
      reads (.strDropRead who f) r.strDrop (fun r => { r with strDrop := 0 }) ∧
      reads (.strWatchRead who f) r.strWatch (fun r => { r with strWatch := 0 }) ∧
      reads (.strIdxRead who f) r.strIdx (fun r => { r with strIdx := 0 }) ∧
      readsCore (.vecCntRead who f c) x.vecCnt (fun r => { r with vecCnt := 0 }) ∧
      readsCore (.vecRowstsRead who f c) x.rowSts (fun r => { r with rowSts := r.rowSts &&& ~~~0x0000FFFFFFFF0000 })) ∧
    (s.inService f.val = false → who ≠ 2 → who ≠ 3 →
      ∀ i ∈ [Instr.fldClampCntRead who f, .mxaGateCntRead who f, .mxaSpecCntRead who f, .fldIssueErrRead who f,
        .fldMemErrRead who f, .strErrRead who f, .strDropRead who f, .strWatchRead who f, .strIdxRead who f,
        .vecCntRead who f c, .vecRowstsRead who f c],
      exec i s = .next { (if who = 1 then s.hostRegs fun r => { r with boundsCnt := bumpFld r.boundsCnt 0 32 1 } else s)
        with rdata := List.replicate 8 0xFF })

/-- R279, R329, R368–R370, R412, R413, R474, R526–R528, R565, R567, R569, R571, R638: each of these reads of a base die, a
port or a hub block answers the register and clears the fields of type RC, and changes nothing else. STK_WATCH
restarts its high mark at the entries held, PWR_SUPPLY its minimum at 0xFFFF, PWR_THERM both maxima.
Next states answered for: stkEccCntRead, stkWatchRead, drvLinkCntRead, drvRxErrRead, drvRxCntRead, colCntRead,
colDupRead, resCntRead, hstCmdErrRead, hstCntRead, hstNarrowCntRead, hstBoundsCntRead, pwrSupplyRead, pwrThermRead,
pwrRegRead, pwrCntRead, dbgTrcStsRead. -/
def Obligations.DeviceReadsThatClear : Prop :=
  ∀ (s : State) (who : Nat) (d : Fin 20) (p : Fin 6) (e : Fin 2), Settled s → s.hubOn = true →
    (who = 1 → s.host.ready = true) →
    let answers := fun (i : Instr) (v : W64) (s' : State) => exec i s = .next (s'.answerWord v)
    let die := s.die d.val
    let port := s.port p.val
    answers (.stkEccCntRead who d) die.eccCnt (s.setDie d.val { die with eccCnt := 0 }) ∧
    answers (.stkWatchRead who d) die.watchReg (s.setDie d.val { die with wHigh := die.watch.length, wRefused := 0 }) ∧
    answers (.drvLinkCntRead who p) port.regs.linkCnt
      (s.setPort p.val { port with regs := { port.regs with linkCnt := 0 } }) ∧
    answers (.drvRxErrRead who p) port.regs.rxErr
      (s.setPort p.val { port with regs := { port.regs with rxErr := 0 } }) ∧
    answers (.drvRxCntRead who p) port.regs.rxCnt
      (s.setPort p.val { port with regs := { port.regs with rxCnt := 0 } }) ∧
    answers (.colCntRead who) s.col.cnt { s with col := { s.col with cnt := 0 } } ∧
    answers (.colDupRead who) s.col.dup { s with col := { s.col with dup := 0 } } ∧
    answers (.resCntRead who) s.res.regs.cnt { s with res := { s.res with regs := { s.res.regs with cnt := 0 } } } ∧
    answers (.hstCmdErrRead who) s.host.regs.cmdErr
      { s with host := { s.host with regs := { s.host.regs with cmdErr := 0 } } } ∧
    answers (.hstCntRead who) s.host.regs.cnt { s with host := { s.host with regs := { s.host.regs with cnt := 0 } } } ∧
    answers (.hstNarrowCntRead who) s.host.regs.narrowCnt
      { s with host := { s.host with regs := { s.host.regs with narrowCnt := 0 } } } ∧
    answers (.hstBoundsCntRead who) s.host.regs.boundsCnt
      { s with host := { s.host with regs := { s.host.regs with boundsCnt := 0 } } } ∧
    answers (.pwrSupplyRead who) (put 0 16 s.pwr.filtered ||| put 16 16 s.pwr.vinMin ||| put 32 12 s.pwr.pIn)
      { s with pwr := { s.pwr with vinMin := 0xFFFF } } ∧
    answers (.pwrThermRead who)
      (put 0 8 s.pwr.tDie ||| put 8 8 s.pwr.tStack ||| put 16 8 s.pwr.tDieMax ||| put 24 8 s.pwr.tStackMax)
      { s with pwr := { s.pwr with tDieMax := 0, tStackMax := 0 } } ∧
    answers (.pwrRegRead who) s.pwrReg { s with pwr := { s.pwr with reg := s.pwr.reg &&& ~~~0x00FF0000FFFF0000 } } ∧
    answers (.pwrCntRead who) s.pwr.cnt { s with pwr := { s.pwr with cnt := 0 } } ∧
    answers (.dbgTrcStsRead who e) (s.trc e.val).sts (s.setTrc e.val { s.trc e.val with drops := 0 })

/-- R241, R280, R477, R628, and R3 of the writes in general: writing 1 to VALID of FLD_THR_FAULT clears VALID, CAUSE and MORE, of
STK_UE_LOG and RES_FAULT clears VALID and MORE; writing 0 changes nothing. A write to FLD_PMC_n stores its low 48 bits,
re-arms the counter's threshold, and keeps OVF only where it was set and 0 is written to it. A 64-bit write to VEC_SR_STEP or
HST_BAR2_BASE stores the register's fields. Nothing else changes; it is stated of folds not in Graze, which would first
wake (R552).
R482: before HST_STS.STATE has first read OFFLINE after a PERST# release, a host's read of any register but HST_STS
answers all-ones and clears nothing, and its writes change nothing. With the hub unpowered no access changes
anything.
Next states answered for: registerWrite, fldPmcWrite, fldThrFaultClear, stkUeLogClear, resFaultClear. -/
def Obligations.RegisterWrites : Prop :=
  (∀ (s : State) (who : Nat) (f : FoldNo) (c n : Fin 8) (d : Fin 20) (v : W64), Settled s → s.hubOn = true →
     (who = 1 → s.host.ready = true) →
     ((s.inService f.val = true ∨ who = 2 ∨ who = 3) → (s.fold f.val).island.graze = false →
       exec (.fldThrFaultClear who f c v) s = .next (if v.getLsbD 11
         then s.coreRegs f.val c.val fun r => { r with thrFault := r.thrFault &&& ~~~0xF8FF } else s) ∧
       (∃ s', exec (.fldPmcWrite who f n v) s = .next s' ∧ OnlyFold f.val s s' ∧
         SMap.get 0 (s'.fold f.val).regs.pmc n.val
           = put 0 48 v.toNat ||| put 48 1 (b2n (bit (s.pmcRead f.val n.val) 48 && !bit v 48)) ∧
         (∀ m, m ≠ n.val → SMap.get 0 (s'.fold f.val).regs.pmc m = SMap.get 0 (s.fold f.val).regs.pmc m)) ∧
       exec (.registerWrite who (if who = 1 then 0x2000000 + 0x10000 * f.val + 0x2280 + 8 * c.val
         else fregBase + fregSlot * f.val + 0x2280 + 8 * c.val) v) s
         = .next (s.coreRegs f.val c.val fun r => { r with srStep := put 0 48 v.toNat })) ∧
     exec (.stkUeLogClear who d v) s = .next (if v.getLsbD 50
       then s.updDie d.val fun x => { x with ueLog := x.ueLog &&& ~~~0x0F04000000000000 } else s) ∧
     exec (.resFaultClear who v) s = .next (if v.getLsbD 24
       then { s with res := { s.res with regs := { s.res.regs with fault := s.res.regs.fault &&& ~~~0xF1000000 } } }
       else s) ∧
     exec (.registerWrite who (if who = 1 then 0x50 else hubBase + 0x50) v) s
       = .next { s with host := { s.host with regs := { s.host.regs with bar2Base := put 21 19 (fld v 21 19) } } }) ∧
  (∀ (s : State) (f : FoldNo) (d : Fin 20) (p : Fin 6) (c : Fin 8) (n : Fin 8) (v : W64) (addr : Nat), Settled s →
     (s.host.ready = false →
       (s.hubOn = true → ∀ i ∈ [Instr.fldClampCntRead 1 f, .vecCntRead 1 f c, .stkEccCntRead 1 d, .drvLinkCntRead 1 p,
         .colCntRead 1, .resCntRead 1, .hstCmdErrRead 1, .pwrSupplyRead 1, .dbgTrcStsRead 1 0],
         exec i s = .next { s with rdata := List.replicate 8 0xFF }) ∧
       (∀ i ∈ [Instr.registerWrite 1 addr v, .fldThrFaultClear 1 f c v, .stkUeLogClear 1 d v, .resFaultClear 1 v,
         .fldPmcWrite 1 f n v], exec i s = .next s)) ∧
     (s.hubOn = false → ∀ who, ∀ i ∈ [Instr.fldClampCntRead who f, .stkEccCntRead who d, .colCntRead who,
       .registerWrite who addr v, .resFaultClear who v], exec i s = .next s))

/-! ### Matrix engine, vector engines, stream engine (chapters 04, 05, 09) -/

/-- R120, R122, R134, R138, R223: the head of the matmul queue starts when its fold's clock runs, the halves it uses are EMPTY or FULL
and, if gated, its slot serves it: it leaves the queue, its halves are FILLING, and it joins the matmuls in flight. With
SPEC = 1 and SPEC_EN = 1 it skips exactly the groups that are neither predicted non-zero nor found non-zero; otherwise
none. A gated head consumes one count.
Next states answered for: matmulStart. -/
def Obligations.MatmulStarts : Prop :=
  ∀ (s : State) (f : FoldNo) (e : Issued) (rest : List Issued), Settled s → Untraced s →
    (s.fold f.val).matQ = e :: rest → (s.fold f.val).clocked = true →
    let d := e.words
    (∀ a ∈ mmArrays d, (s.half f.val a.1 (mmHalf d)).st = .empty ∨ (s.half f.val a.1 (mmHalf d)).st = .full) →
    (∀ g, e.gate = some g → (s.slot f.val g).waiters = [.gateMxa] ∧ 1 ≤ (s.slot f.val g).count) →
    (mmSpec d = true → (s.fold f.val).regs.specEn = true →
      ∀ r ∈ (s.fold f.val).matRun, r.useSpec = false ∨ mmSlot r.d.words ≠ mmSlot d) →
    ∃ s' r, exec (.matmulStart f) s = .next s' ∧ (s'.fold f.val).matQ = rest ∧
      (s'.fold f.val).matRun = (s.fold f.val).matRun ++ [r] ∧ r.d = e ∧
      (∀ a ∈ mmArrays d, (s'.half f.val a.1 (mmHalf d)).st = .filling) ∧
      (∀ g, g < mmGroups d → maskHas r.skipped g = (mmSpec d && (s.fold f.val).regs.specEn
        && !maskHas (s.predicted f.val d) g && (mmTiles d).all fun t => s.tileZero e t g)) ∧
      (∀ g, e.gate = some g → (s'.slot f.val g).count = (s.slot f.val g).count - 1) ∧
      s'.mem = s.mem ∧ (∀ u, s'.th u = s.th u) ∧ (s'.fold f.val).acc = (s.fold f.val).acc

/-- R69–R71, R112, R120, R121, R127, R135: when the oldest matmul in flight completes, its halves are FULL, and each
accumulator element of its window holds: for an INT pair the element before (or 0 with ACC_INIT), plus the sum of the
products, modulo 2^32; for a one-pass float pair with NOGATE and K a multiple of its Kp, the FP32 additions of the
products to it in ascending k. Every other element of the accumulators and all memory are as before. It is stated where
speculation skipped only zero groups (INT) or none (float), and of MXFP4 weights in pairs that share a scale (R115).
R110: the cells then hold the last pass's weights; of a matmul of one pass, W's patterns, each in the row of its index.
R133, R136, R141, R306: SLOT_CLR = 1 clears every speculation slot and writes SPEC_EN; a demand fetch moves the rows of the
next group that the oldest waiting matmul waits for, from the demand entry's source to its destination, counts in
STR_WATCH.DEMAND, and the matmul waits for that group no longer.
Next states answered for: matmulComplete, demandFetchArrive, slotClr. -/
def Obligations.MatmulCompletes : Prop :=
  (∀ (s : State) (f : FoldNo) (r : MatRun) (rest : List MatRun) (kind : PairKind) (kp : Nat), Settled s → Untraced s →
     s.ue = [] → (s.fold f.val).matRun = r :: rest → r.pending = [] → (s.fold f.val).clocked = true →
     let e := r.d
     let d := e.words
     mmPair (mmA e).format (mmW e).format = some (kind, kp) → mmNW d ≤ 128 →
     (∀ a ∈ mmArrays d, mmRow0 d + a.2.2 ≤ 512) →
     (mmEvtEn d = true → (s.slot f.val (mmEvt d)).waiters = []) → 0 < mmK d →
     let whole := (∀ g, maskHas r.skipped g = false) ∧ ∀ g, maskHas r.miss g = false
     let weight := fun (k n : Nat) => s.winVal (mmW e) (mmWX0 d + n) (mmWY0 d + k) (mmZ d 2) (mmZ d 3)
     let scale := fun (k n : Nat) => s.winScale (mmW e) (mmWX0 d + n) (mmWY0 d + k) (mmZ d 2) (mmZ d 3)
     let before := fun (key : Nat) => if mmAccInit d then 0 else s.accAt f.val key
     ∃ s', exec (.matmulComplete f) s = .next s' ∧ (s'.fold f.val).matRun = rest ∧
       (∀ a ∈ mmArrays d, s'.half f.val a.1 (mmHalf d) = { st := .full }) ∧
       (∀ a ∈ mmArrays d, ∀ j n, j < a.2.2 → n < mmNW d →
         let key := accKey a.1 (mmHalf d) (mmRow0 d + j) n
         (kind = .int → (∀ g, maskHas r.skipped g = true → (mmTiles d).all (fun t => s.tileZero e t g) = true) →
           s'.accAt f.val key = before key + BitVec.ofInt 32 ((List.range (mmK d)).foldl (fun z k =>
           z + valInt (s.mmAval e (a.2.1 + j) k) * valInt (weight k n)) 0)) ∧
         (kind = .direct → mmNogate d = true → mmK d % kp = 0 → whole →
           (kp = 256 → ∀ i, 2 * i + 1 < mmK d → scale (2 * i) n = scale (2 * i + 1) n) → s'.accAt f.val key = (List.range (mmK d)).foldl
           (fun z k => fAdd z (toF32 ((s.mmAval e (a.2.1 + j) k).mul (weight k n)))) (before key))) ∧
       (kind ≠ .fp32 → kp = 128 → mmK d ≤ 128 → whole → ∀ k n, k < mmK d → n < mmNW d →
         (SMap.get {} (s'.fold f.val).active (128 * k + n)).pats
           = [s.winPat (mmW e) (mmWX0 d + n) (mmWY0 d + k) (mmZ d 2) (mmZ d 3)]) ∧
       (∀ key, (∀ a ∈ mmArrays d, ∀ j n, j < a.2.2 → n < mmNW d → key ≠ accKey a.1 (mmHalf d) (mmRow0 d + j) n) →
         s'.accAt f.val key = s.accAt f.val key) ∧
       (r.useSpec = true → ∃ m, SMap.get none (s'.fold f.val).spec (mmSlot d) = some ⟨mmGroups d, m⟩ ∧
         ∀ g, g < mmGroups d → maskHas m g = !((mmTiles d).all fun t => s.tileZero e t g)) ∧
       (mmEvtEn d = true → (s'.slot f.val (mmEvt d)).count = min ((s.slot f.val (mmEvt d)).count + 1) 65535) ∧
       s'.mem = s.mem) ∧
  (∀ (s : State) (f : FoldNo), Settled s →
     (∀ who v, s.hubOn = true → (who = 1 → s.host.ready = true) → (s.inService f.val = true ∨ who = 2 ∨ who = 3) →
       (s.fold f.val).island.graze = false → v.getLsbD 1 = true →
       exec (.slotClr who f v) s = .next (s.updFold f.val fun x => { x with
         regs := { x.regs with specEn := v.getLsbD 0 }, spec := [] })) ∧
     (∀ r rest g b ps q, Untraced s → s.ue = [] → (s.fold f.val).clocked = true → (s.fold f.val).matRun = r :: rest →
       r.pending = (g, b) :: ps → (s.fold f.val).demand = [q] → q.slot = mmSlot r.d.words → stKind q.d.words = kLOAD →
       ∃ s', exec (.demandFetchArrive f) s = .next s' ∧
         (s'.fold f.val).matRun.head? = some { r with pending := ps } ∧
         fld (s'.fold f.val).regs.strWatch 48 16 = min (fld (s.fold f.val).regs.strWatch 48 16 + 1) 65535 ∧
         s'.mem = (s.rectLines (stSrc q.d) (stDst q.d) (pieceRect q.d 0) fun h => h = g).foldl
           (fun m l => putBytes m l.1 l.2) s.mem))

/-- R120, R161, R170, R171, R223: the head of a core's chain queue starts when fewer than two chains are in flight, its half, if it
reads one, is FULL or READING, a chain with PREV finds none in flight, and its gate serves it. Every armed codebook
table switches banks and its generation goes up by one; the half is READING.
Next states answered for: chainStart. -/
def Obligations.ChainStarts : Prop :=
  ∀ (s : State) (f : FoldNo) (c : Fin 8) (e : Issued) (rest : List Issued), Settled s → Untraced s →
    let x := s.core f.val c.val
    let d := e.words
    let h := s.half f.val (chArr d) (chHalf d)
    x.chainQ = e :: rest → (s.fold f.val).clocked = true → x.inflight.length < 2 →
    (chSrcAcc d = true → h.st = .full ∨ h.st = .reading) →
    (usesPrev (stagesOf (e.subs.getD 0 []) (chNstg d)) = true → x.inflight = []) →
    (∀ g, e.gate = some g → (s.slot f.val g).waiters = [.gateVec c.val] ∧ 1 ≤ (s.slot f.val g).count) →
    ∃ s', exec (.chainStart f c) s = .next s' ∧
      let y := s'.core f.val c.val
      y.chainQ = rest ∧ y.cbBanks = x.cbBanks ^^^ fld x.regs.cbCtl 28 8 ∧
      y.inflight = x.inflight ++ [⟨e, y.cbBanks⟩] ∧ fld y.regs.cbCtl 28 8 = 0 ∧
      (∀ t, t < 8 → fld y.regs.cbGen (8 * t) 8
        = if bit x.regs.cbCtl (28 + t) then (fld x.regs.cbGen (8 * t) 8 + 1) % 256 else fld x.regs.cbGen (8 * t) 8) ∧
      (chSrcAcc d = true → s'.half f.val (chArr d) (chHalf d) = { h with st := .reading, readers := h.readers + 1 }) ∧
      (∀ g, e.gate = some g → (s'.slot f.val g).count = (s.slot f.val g).count - 1) ∧
      s'.mem = s.mem ∧ (∀ u, s'.th u = s.th u)

/-- R120, R162, R165: a chain that completes leaves the chains in flight with what it computes in memory; the last reader of its half
leaves the half EMPTY if any reader carried REL and FULL otherwise, and its slot EVT gains one.
R171, R172, R173, R181: a write of LOAD = 1 to VEC_CB_CTL begins a codebook load, which copies at once when no chain in flight
reads the table's inactive bank, and its table is then not armed; while one is in progress it is discarded and sets LOST. When the copy completes, the
inactive bank of the table holds the 256 words at its address in the fold store and the table is armed.
Next states answered for: chainComplete, codebookLoad, codebookLoadDone. -/
def Obligations.ChainCompletes : Prop :=
  (∀ (s : State) (f : FoldNo) (c : Fin 8) (second : Bool) (r : ChainRun), Settled s → Untraced s → Awake s → s.ue = [] →
     let x := s.core f.val c.val
     let n := if second then 1 else 0
     let d := r.d.words
     let h := s.half f.val (chArr d) (chHalf d)
     x.inflight[n]? = some r → (s.fold f.val).clocked = true →
     (chEvtEn d = true → (s.slot f.val (chEvt d)).waiters = []) →
     ∃ s', exec (.chainComplete f c second) s = .next s' ∧
       (s'.core f.val c.val).inflight = x.inflight.eraseIdx n ∧
       s'.mem = (s.runChain (s.chain f.val c.val r)).1.mem ∧
       (chSrcAcc d = true → s'.half f.val (chArr d) (chHalf d) =
         if h.readers ≤ 1 then { st := if h.rel || chRel d then .empty else .full }
         else { h with readers := h.readers - 1, rel := h.rel || chRel d }) ∧
       (chEvtEn d = true → (s'.slot f.val (chEvt d)).count = min ((s.slot f.val (chEvt d)).count + 1) 65535) ∧
       (∀ u, s'.th u = s.th u)) ∧
  (∀ (s : State) (f : FoldNo) (c : Fin 8), Settled s →
     let x := s.core f.val c.val
     (∀ who v, s.hubOn = true → (who = 1 → s.host.ready = true) → (s.inService f.val = true ∨ who = 2 ∨ who = 3) →
       (s.fold f.val).island.graze = false → v.getLsbD 25 = true → ∃ s', exec (.codebookLoad who f c v) s = .next s' ∧
         let y := s'.core f.val c.val
         (x.cbLoad.isSome = true → y.cbLoad = x.cbLoad ∧ bit y.regs.cbCtl 27 = true) ∧
         (x.cbLoad = none → y.cbLoad = some ⟨fld v 22 3, fld v 10 12 * 1024,
             x.inflight.all fun r => !r.readsTable (fld v 22 3) ||
               Nat.testBit r.banks (fld v 22 3) == Nat.testBit x.cbBanks (fld v 22 3)⟩ ∧
           fld y.regs.cbCtl 10 12 = fld v 10 12 ∧ fld y.regs.cbCtl 22 3 = fld v 22 3 ∧
           bit y.regs.cbCtl (28 + fld v 22 3) = false) ∧
         y.cbData = x.cbData ∧ y.cbBanks = x.cbBanks ∧ OnlyCore f.val c.val s s') ∧
     (∀ l, s.ue = [] → (s.fold f.val).clocked = true → x.cbLoad = some l → l.copying = true → l.table < 8 →
       x.cbBanks < 256 → l.offset + 1024 ≤ foldSize - s.fcBytes f.val →
       ∃ s', exec (.codebookLoadDone f c) s = .next s' ∧
         let y := s'.core f.val c.val
         let bank := if Nat.testBit x.cbBanks l.table then 0 else 1
         (∀ i, i < 256 → SMap.get none y.cbData ((bank * 8 + l.table) * 256 + i)
           = some (BitVec.ofNat 32 (s.readNum (foldBase + f.val * foldSlot + l.offset + 4 * i) 4))) ∧
         y.cbLoad = none ∧ bit y.regs.cbCtl (28 + l.table) = true ∧ y.cbBanks = x.cbBanks ∧ s'.mem = s.mem))

/-- R282, R283, R298, R302, R303: the head of the stream queue takes the lowest free context when its gate, unless it is EARLY,
serves it. A LOAD or COPY from stack memory registers a watch entry over the stack-local pages of its source with every
base die that has fewer than 512, and counts a fall-back for each that has not. No data moves yet when the stream is no
ring and no SEND.
R223, R292, R303, R307, R309, R316: any descriptor of the stream queue starts so, an EARLY one without its gate, a SEND while its port
is in service: it takes the context and leaves the queue.
Next states answered for: streamStart. -/
def Obligations.StreamStarts : Prop :=
  (∀ (s : State) (f : FoldNo) (e : Issued) (rest : List Issued) (k : Nat), Settled s → Untraced s → Awake s → s.ue = [] →
    let d := e.words
    let early := hdrType d = 0x30 ∧ stEarly d = true
    (s.fold f.val).strQ = e :: rest → s.freeCtx f.val = some k → (s.fold f.val).clocked = true →
    (∀ g, e.gate = some g → early ∨ ((s.slot f.val g).waiters = [.gateStr] ∧ 1 ≤ (s.slot f.val g).count)) →
    (stSkip d = true → ∀ q ∈ (s.fold f.val).demand, q.slot ≠ stSlot d) →
    (stKind d = kSEND → s.inSvc (stRoute d - 1) = true) →
    ∃ s' c, exec (.streamStart f) s = .next s' ∧ (s'.fold f.val).strQ = rest ∧ s'.ctx f.val k = some c ∧ c.d = e ∧
      (c.gateOpen = false ↔ early ∧ e.gate.isSome = true) ∧ (∀ m, m ≠ k → s'.ctx f.val m = s.ctx f.val m)) ∧
  (∀ (s : State) (f : FoldNo) (e : Issued) (rest : List Issued) (k : Nat), Settled s → Untraced s → s.ue = [] →
    let d := e.words
    (s.fold f.val).strQ = e :: rest → s.freeCtx f.val = some k → (s.fold f.val).clocked = true →
    hdrType d = 0x30 → stRing d = false → stKind d ≠ kSEND → stSkip d = false → stEarly d = false →
    (∀ g, e.gate = some g → (s.slot f.val g).waiters = [.gateStr] ∧ 1 ≤ (s.slot f.val g).count) →
    ∃ s' c, exec (.streamStart f) s = .next s' ∧ (s'.fold f.val).strQ = rest ∧ s'.ctx f.val k = some c ∧ c.d = e ∧
      c.released = 0 ∧ c.gateOpen = true ∧ c.skipMask = 0 ∧ (∀ m, m ≠ k → s'.ctx f.val m = s.ctx f.val m) ∧
      (∀ g, e.gate = some g → (s'.slot f.val g).count = (s.slot f.val g).count - 1) ∧
      (∀ b, b < 20 →
        if stKind d ≠ kSTORE ∧ isInter (stSrc e).base = true ∧ (s.die b).watch.length < 512 then
          ∃ lo hi, (s'.die b).watch = (s.die b).watch ++ [⟨f.val, k, lo, hi⟩] ∧ b ∈ c.watched ∧
            ∀ a n, (a, n) ∈ (stSrc e).runs false (stWin d) → 0 < n → lo ≤ a / 4096 / 20 ∧ (a + n - 1) / 4096 / 20 ≤ hi
        else (s'.die b).watch = (s.die b).watch ∧ b ∉ c.watched) ∧
      s'.mem = s.mem ∧ (∀ u, s'.th u = s.th u))

/-- R284, R286, R293, R300, R301, R303: a stream's data moves when its piece is released. A watched piece is released by the reply to
its seal, which comes after every notification that was due, an unwatched whole stream as it completes; either leaves in memory exactly the lines of the piece, as memory
stood at that moment. A completed stream frees its context and adds one to its slot.
Next states answered for: sealReply, streamComplete. -/
def Obligations.StreamReleasesAndCompletes : Prop :=
  ∀ (s : State) (f : FoldNo) (k : Fin 16) (c : Ctx), Settled s → Untraced s → Awake s → s.ue = [] →
    let d := c.d.words
    s.ctx f.val k.val = some c → hdrType d = 0x30 → stKind d ≠ kSEND → stRing d = false → 0 < stNY d →
    c.gateOpen = true → (s.fold f.val).clocked = true → c.d.gate = none → c.status = 0 →
    (stEvtEn d = true → (s.slot f.val (stEvt d)).waiters = []) → (s.slot f.val (stCred d)).waiters = [] →
    let moved := (s.rectLines (stSrc c.d) (stDst c.d) (pieceRect c.d 0) fun g => !maskHas c.skipMask g).foldl
      (fun m l => putBytes m l.1 l.2) s.mem
    let signalled := fun (s' : State) => s'.ctx f.val k.val = none ∧
      (∀ b, ∀ w ∈ (s'.die b).watch, c.skipMask = 0 → b < 20 → ¬ (w.fold = f.val ∧ w.ctx = k.val)) ∧
      (stEvtEn d = true → (s'.slot f.val (stEvt d)).count = min ((s.slot f.val (stEvt d)).count + 1) 65535)
    (c.watched ≠ [] → c.released = 0 → (∀ n ∈ s.notes, ¬ (n.fold = f.val ∧ n.ctx = k.val)) →
      ∃ s', exec (.sealReply f k) s = .next s' ∧ s'.mem = moved ∧
      s'.ctx f.val k.val = some { c with released := 1, held := false } ∧ (∀ u, s'.th u = s.th u)) ∧
    (c.watched = [] → c.released = 0 → ∃ s', exec (.streamComplete f k) s = .next s' ∧ s'.mem = moved ∧ signalled s' ∧
      (∀ u, s'.th u = s.th u)) ∧
    (c.released = 1 → ∃ s', exec (.streamComplete f k) s = .next s' ∧ s'.mem = s.mem ∧ signalled s' ∧
      (∀ u, s'.th u = s.th u))

/-- R291, R299, R303, R307: a ring stream's credit consumes one count of its slot CRED and lets one more piece go; an EARLY
stream's gate consumes one count of its gate slot; a watch notification, the oldest that is due, counts the units of its
page that are fetched again; the
acknowledgement of a SEND's piece adds one to its slot. It is stated of watched streams, whose data moves at the seal.
Next states answered for: streamCredit, watchNotify, streamGateOpen, sendAcknowledged. -/
def Obligations.StreamProgress : Prop :=
  ∀ (s : State) (f : FoldNo) (k : Fin 16) (c : Ctx), Settled s → Untraced s →
    let d := c.d.words
    s.ctx f.val k.val = some c → hdrType d = 0x30 → (s.fold f.val).clocked = true →
    (c.watched ≠ [] → stRing d = true → c.credits + stRingLen c.d < stPieces d →
      (s.slot f.val (stCred d)).waiters = [.cred k.val] → 1 ≤ (s.slot f.val (stCred d)).count →
      ∃ s', exec (.streamCredit f k) s = .next s' ∧ s'.ctx f.val k.val = some { c with credits := c.credits + 1 } ∧
        (s'.slot f.val (stCred d)).count = (s.slot f.val (stCred d)).count - 1 ∧ s'.mem = s.mem) ∧
    (∀ g, c.watched ≠ [] → c.d.gate = some g → c.gateOpen = false → (s.slot f.val g).waiters = [.gateCtx k.val] →
      1 ≤ (s.slot f.val g).count → ∃ s', exec (.streamGateOpen f k) s = .next s' ∧
        s'.ctx f.val k.val = some { c with gateOpen := true, held := false } ∧
        (s'.slot f.val g).count = (s.slot f.val g).count - 1 ∧ s'.mem = s.mem) ∧
    (∀ units n, (s.notes.find? fun n => n.fold = f.val && n.ctx = k.val) = some n →
      let again := (runUnits c.unreleased).filter fun u => (stackOf (64 * u)).1 = n.die && (stackOf (64 * u)).2 / 4096 = n.page
      exec (.watchNotify f k units) s = .next ({ s with notes := s.notes.erase n }.foldRegs f.val fun r =>
        { r with strWatch := bumpFld r.strWatch 0 32 (min units again.length) })) ∧
    (stKind d = kSEND → c.acked < c.released → (s.port (stRoute d - 1)).holds (f.val, k.val, c.acked) = false →
      stEvtEn d = true → (s.slot f.val (stEvt d)).waiters = [] → ∃ s', exec (.sendAcknowledged f k) s = .next s' ∧
        (∃ c', s'.ctx f.val k.val = some c' ∧ c'.d = c.d ∧ c'.acked = c.acked + 1 ∧ c.released ≤ c'.released ∧
          (c.watched ≠ [] ∨ stPieces d ≤ c.released → c' = { c with acked := c.acked + 1 })) ∧
        (s'.slot f.val (stEvt d)).count = min ((s.slot f.val (stEvt d)).count + 1) 65535 ∧ s'.mem = s.mem)

/-- R310, R311, R313, R316–R320, R322, R325: a gather of one index copies the table row the index names, clamped to the table where it is
not STRICT, to its row, and a scatter STORE the other way; an index outside a STRICT table moves nothing and ends the
descriptor with BOUNDS, recorded in STR_ERR. A transform writes its destination from the values that memory held before
it wrote anything. Each frees its context and adds one to its slot.
Next states answered for: gatherScatterComplete, transformComplete. -/
def Obligations.GatherScatterTransform : Prop :=
  ∀ (s : State) (f : FoldNo) (k : Fin 16) (c : Ctx), Settled s → Untraced s → Awake s → s.ue = [] →
    let e := c.d
    let d := e.words
    let ends := fun (s' : State) => s'.ctx f.val k.val = none ∧ (∀ u, s'.th u = s.th u) ∧
      ∀ n, strEvt d = some n → (s.slot f.val n).waiters = [] →
        (s'.slot f.val n).count = min ((s.slot f.val n).count + 1) 65535
    s.ctx f.val k.val = some c → (s.fold f.val).clocked = true → e.gate = none →
    (hdrType d ∈ [0x31, 0x32] → gsNIdx d = 1 →
      let tab := e.sub 0
      let h := (tab.dim 1 : Int)
      let x := s.gsIndex e 0
      let row := (max 0 (min x (h - 1))).toNat
      let gather : Rect := { sx := gsTX0 d, sy := row, dx := gsRX0 d, dy := gsRY0 d, nx := gsNX d, ny := 1 }
      let scatter : Rect := { sx := gsRX0 d, sy := gsRY0 d, dx := gsTX0 d, dy := row, nx := gsNX d, ny := 1 }
      let copied := fun src dst r => (s.rectLines src dst r fun _ => true).foldl (fun m l => putBytes m l.1 l.2) s.mem
      0 < h →
      ((0 ≤ x ∧ x < h) ∨ tab.strict = false →
        (hdrType d = 0x31 → ∃ s', exec (.gatherScatterComplete f k) s = .next s' ∧ ends s' ∧
          s'.mem = copied tab (e.sub 2) gather) ∧
        (hdrType d = 0x32 → gsOp d = 0 → ∃ s', exec (.gatherScatterComplete f k) s = .next s' ∧ ends s' ∧
          s'.mem = copied (e.sub 2) tab scatter)) ∧
      (¬ (0 ≤ x ∧ x < h) → tab.strict = true → s.jobLive = false →
        ∃ s', exec (.gatherScatterComplete f k) s = .next s' ∧ ends s' ∧ s'.mem = s.mem ∧
          (fld (s.fold f.val).regs.strErr 0 8 = 0 → fld (s'.fold f.val).regs.strErr 0 8 = 0x03))) ∧
    (hdrType d = 0x38 →
      let dst := e.sub 1
      let ax := dst.axis
      let lines := (List.range (dst.dim 3)).flatMap fun z3 => (List.range (dst.dim 2)).flatMap fun z2 =>
        (List.range (dst.dim (1 - ax))).flatMap fun o => (List.range (ceilDiv (dst.dim ax) 32)).map fun ln =>
          (z2, z3, o, ln)
      ∃ s', exec (.transformComplete f k) s = .next s' ∧ ends s' ∧
        s'.mem = (lines.foldl (fun (t : State) (l : Nat × Nat × Nat × Nat) =>
          t.tfWrite f.val e l.1 l.2.1 l.2.2.1 l.2.2.2 (s.tfLine e l.1 l.2.1 l.2.2.1 l.2.2.2)) s).mem)

/-! ### Memory errors (chapter 08) -/

/-- R267, R272, R273, R276, R278–R281: a scrub counts the units, in a fold store the words, that it corrects and those that it
finds uncorrectable; the first uncorrectable unit of a stack since VALID was cleared is logged with its offset, agent 0 and
KIND scrub, later ones, and one found again, in MORE; no step is tainted. An error that memory takes after the scrub has
passed stays for its next reader. A row with correctable errors in three distinct units moves to a spare row of its bank,
and where all 16 are in use sets EXHAUSTED and stays. No byte changes. Uncorrectable finds are stated where no job runs
that they could stop (R461), and of a memory without other errors.
Next states answered for: stackScrub, foldScrub, rowRepair. -/
def Obligations.ScrubAndRepair : Prop :=
  ∀ (s : State) (d : Fin 20) (f : FoldNo) (u row : Nat), Settled s → s.hubOn = true →
    let die := s.die d.val
    let unit := interOf d.val (64 * u)
    let word := foldBase + foldSlot * f.val + 8 * u
    let errs := SMap.get [] die.rowErrs row
    let used := SMap.get 0 die.used (Config.dramBank d.val row)
    let logged := fun (s' : State) => fld (s'.die d.val).eccCnt 32 16 = min (fld die.eccCnt 32 16 + 1) 65535 ∧
      (bit die.ueLog 50 = false → fld (s'.die d.val).ueLog 0 36 = 64 * u ∧ fld (s'.die d.val).ueLog 36 12 = 0 ∧
        fld (s'.die d.val).ueLog 48 2 = 2 ∧ bit (s'.die d.val).ueLog 50 = true) ∧
      (bit die.ueLog 50 = true → fld (s'.die d.val).ueLog 0 52 = fld die.ueLog 0 52 ∧
        fld (s'.die d.val).ueLog 56 4 = min (fld die.ueLog 56 4 + 1) 15)
    (u < 805306368 →
      (s.ue = [] → ∃ s', exec (.stackScrub d [⟨u, true⟩] []) s = .next s' ∧ s' = { s with dies := s'.dies } ∧
        fld (s'.die d.val).eccCnt 0 32 = min (fld die.eccCnt 0 32 + 1) (2 ^ 32 - 1) ∧
        u ∈ SMap.get [] (s'.die d.val).rowErrs (u / 16)) ∧
      (s.ue = [] → s.running = false → ∃ s', exec (.stackScrub d [⟨u, false⟩] []) s = .next s' ∧
        s' = { s with dies := s'.dies, ue := [⟨unit, false, true⟩] } ∧ logged s') ∧
      (s.ue = [⟨unit, false, true⟩] → s.running = false → ∃ s', exec (.stackScrub d [] []) s = .next s' ∧
        s' = { s with dies := s'.dies } ∧ logged s') ∧
      (s.ue = [] → exec (.stackScrub d [] [⟨u, true⟩]) s = .next { s with ue := [⟨unit, true, false⟩] })) ∧
    (8 * u < foldSize - s.fcBytes f.val → (s.fold f.val).clocked = true → s.ue = [] →
      (∃ s', exec (.foldScrub f [⟨u, true⟩] []) s = .next s' ∧ s' = { s with folds := s'.folds } ∧
        fld (s'.fold f.val).regs.memErr 32 16 = min (fld (s.fold f.val).regs.memErr 32 16 + 1) 65535) ∧
      (u / 8 ∉ (s.fold f.val).island.ueRows →
        ∃ s', exec (.foldScrub f [⟨u, false⟩] []) s = .next s' ∧
          s' = { s with folds := s'.folds, ue := [⟨word, false, true⟩] } ∧
          fld (s'.fold f.val).regs.memErr 48 8 = min (fld (s.fold f.val).regs.memErr 48 8 + 1) 255)) ∧
    (3 ≤ errs.length →
      (used < 16 → (∀ i, i < 16 → s.badAt (interOf d.val (64 * (16 * row + i))) = false) →
        ∃ s', exec (.rowRepair d row) s = .next s' ∧ s' = { s with dies := s'.dies } ∧
          (s'.die d.val).soft = min (die.soft + 1) 65535 ∧ row ∈ (s'.die d.val).remapped ∧
          SMap.get 0 (s'.die d.val).used (Config.dramBank d.val row) = used + 1 ∧
          (∀ b, b ≠ d.val → s'.die b = s.die b)) ∧
      (16 ≤ used → exec (.rowRepair d row) s = .next (s.setDie d.val { die with exhaust := true })))

/-- R40–R42, R256–R259: what an access to bytes of one interleaved page meets: DENIED_SECURE where S forbids it, BOUNDS where V or
the attribute of its kind does, OK otherwise, whatever page table is in force; the shepherd, the security core and the
collective and resilience engines are not held by S. A stack-local window admits secure requesters alone.
R39, R43: every byte of stack memory has one home. The stack and stack-local offset of an interleaved address determine the
address, the stack is one of twenty, and an address and the stack-local window's address of the same home read and
write the same byte. -/
def Obligations.AddressesAndPages : Prop :=
  (∀ (s : State) (who a len : Nat) (k : Acc), 0 < len → a + len ≤ interTop → a / 0x200000 = (a + len - 1) / 0x200000 →
     let e := s.pageEntry (a / 0x200000)
     let secure := who = 2 ∨ who = 3 ∨ who = 4
     let needs := match k with
       | .read => e.testBit 2
       | .write => e.testBit 3
       | .fetch => e.testBit 4
       | .hostRead => e.testBit 5
       | .hostWrite => e.testBit 6
     (e.testBit 1 = true → ¬ secure → s.accStatus who k a len = .deniedSecure) ∧
     ((e.testBit 1 = false ∨ secure) → e.testBit 0 = false ∨ needs = false → s.accStatus who k a len = .bounds) ∧
     ((e.testBit 1 = false ∨ secure) → e.testBit 0 = true → needs = true → s.accStatus who k a len = .ok) ∧
     (∀ i o, i < 20 → o < localSize → (k = .read ∨ k = .write) → ¬ secure →
       s.accStatus who k (localBase + localSlot * i + o) 1 = .deniedSecure)) ∧
  ((∀ a, a < interTop → (stackOf a).1 < 20 ∧ interOf (stackOf a).1 (stackOf a).2 = a) ∧
   (∀ i o, i < 20 → o < localSize → interOf i o < interTop ∧ stackOf (interOf i o) = (i, o)) ∧
   (∀ (s : State) (a : Nat), a < interTop →
     s.byteAt (localBase + localSlot * (stackOf a).1 + (stackOf a).2) = s.byteAt a))

/-! ### Drove Link ports (chapter 10) -/

/-- R338–R342: in TRAINING, lanes that all equalise give ×16, eight on one side ×8, and anything else fails the training
with LINK_DOWN; a handshake that R341 refuses fails it with the first failing status; one that passes enters HELD, and
ACTIVE when the roles are complementary and both are AUX, or, in a job that is loaded, the partner's job and rank are those
listed; its TAG says nothing. A failed training is DOWN, with the status in ERR, and fails
by itself after 50,000,000 ticks; 100,000,000 ticks later the port, if it has a role and is not disabled, trains again.
ERR BOUNDS marks a HELD port whose partner does not match.
Next states answered for: trainingTimeout, trainingRetry, linkHandshake, equalisation. -/
def Obligations.LinkTraining : Prop :=
  ∀ (s : State) (p : Fin 6), Settled s → Untraced s →
    let x := s.port p.val
    let becomes := fun (i : Instr) (t : Nat) (y : Port) =>
      ∃ s', exec i s = .next s' ∧ PortBecomes p.val y { s with now := t } s'
    let fails := fun (i : Instr) (st : Status) (t : Nat) =>
      becomes i t { x with
        st := .down, width := 0, ver := 0, since := t, failedAt := some t, regs := { x.regs with err := st.code } }
    (x.st = .training →
      (∀ lanes : BitVec 16,
        let w := if lanes = 0xFFFF#16 then 3 else if lanes.extractLsb' 0 8 = 0xFF#8 then 1
          else if lanes.extractLsb' 8 8 = 0xFF#8 then 2 else 0
        (w = 0 → fails (.equalisation p lanes) .linkDown s.now) ∧
        (w ≠ 0 → becomes (.equalisation p lanes) s.now { x with width := w })) ∧
      (∀ ws, x.width ≠ 0 →
        let bad := firstFail [(fld (wd ws 0) 8 4 ≠ 1, .version), (fld (wd ws 0) 0 8 ≠ 0x40, .unsupported),
          (fld (wd ws 0) 12 20 ≠ 0 || fld (wd ws 1) 19 5 ≠ 0 || wd ws 5 ≠ 0 || wd ws 6 ≠ 0
            || wd ws 7 ≠ 0, .reservedNonzero),
          (!(decide (1 ≤ fld (wd ws 1) 8 8) && decide (fld (wd ws 1) 0 8 ≤ 1)), .version)]
        let y : Port := { x with
          st := .held, ver := 1, peer := ws, since := s.now, decodeAt := s.now,
          credits := SMap.set 0 x.credits 3 (fld (wd ws 4) 48 16) }
        let roles := (x.role, fld (wd ws 1) 16 3) ∈ [(1, 2), (2, 1), (3, 3), (4, 5), (5, 4), (6, 6)]
        let listed := ∃ j, s.job = some j ∧ fld (wd ws 1) 48 16 = fld (j.ports.getD p.val (0, 0)).1 16 16
        (bad ≠ .ok → fails (.linkHandshake p ws) bad s.now) ∧
        (bad = .ok → 1 ≤ x.role → x.role ≤ 6 →
          (¬ (roles ∧ (x.role = 6 ∨ (s.jobId ≠ 0 ∧ wd ws 2 = s.jobId ∧ listed))) →
            becomes (.linkHandshake p ws) s.now { y with regs := { y.regs with err := 0x03 } }) ∧
          (roles → x.role = 6 → ∃ s', exec (.linkHandshake p ws) s = .next s' ∧
            OnlySends p.val (s.setPort p.val { y with st := .active, recAt := s.now }) s') ∧
          (roles → x.role ≠ 6 → s.jobId ≠ 0 → wd ws 2 = s.jobId → listed → s.host.st = .loaded →
            ∃ s', exec (.linkHandshake p ws) s = .next s' ∧ (s'.port p.val).st = .active ∧
              (s'.port p.val).peer = ws ∧ s'.mem = s.mem))) ∧
      fails (.trainingTimeout p) .linkDown (max s.now (x.since + 50000000))) ∧
    (∀ t, x.st = .down → x.failedAt = some t → x.role ≠ 0 → x.disable = false →
      ∃ adv, (∀ vc, vc < 4 → SMap.get 0 adv vc = x.offer vc) ∧
        becomes (.trainingRetry p) (max s.now (t + 100000000)) { x with
          st := .training, since := max s.now (t + 100000000), timeN := 0, width := 0, ver := 0, peer := [],
          hsSent := s.handshake p.val, decodeAt := max s.now (t + 100000000), failedAt := none, adv := adv })

/-- R333, R335–R337, R343, R346: a frame counts its codeword errors. One that fails its CRC is answered with NAK and
changes nothing else, one out of sequence is dropped, and one in sequence frees the frames it acknowledges; a packet
that the port's state serves and that is well formed enters the receive buffer of its channel. A port whose oldest
frame was sent 4,000 ticks ago replays every frame that waits, up to eight times. It is stated of a port with nothing
to send and where no gradient waits for its instance; frames reach no port that is DOWN, in RESET or DISABLED.
Next states answered for: frameReceive, replayTimeout. -/
def Obligations.LinkFrames : Prop :=
  ∀ (s : State) (p : Fin 6) (fseq ack corr uncorr : Nat) (nak : Bool) (pkts : List Packet), Settled s → Untraced s →
    let x := s.port p.val
    let counted : Port := { x with regs := { x.regs with linkCnt := bumpFld (bumpFld x.regs.linkCnt 0 32 corr) 32 16 uncorr } }
    let becomes := fun (i : Instr) (t : Nat) (y : Port) =>
      ∃ s', exec i s = .next s' ∧ PortBecomes p.val y { s with now := t } s'
    (∀ q ∈ SMap.get [] x.rxq vcGRAD, q.ptype = ptRACC → s.raccWaits q = false) →
    (x.st ∈ [PortSt.training, .held, .active] →
      becomes (.frameReceive p fseq ack nak false corr uncorr pkts) s.now { counted with nak := true } ∧
      (fseq ≠ x.fseqIn → becomes (.frameReceive p fseq ack nak true corr uncorr pkts) s.now
        { counted with decodeAt := s.now }) ∧
      (fseq = x.fseqIn → (∀ vc, x.queue vc = []) →
        let left := match x.unacked.findIdx? fun fr => fr.fseq = ack with
          | some i => x.unacked.drop (i + 1)
          | none => x.unacked
        let y : Port := { counted with
          decodeAt := s.now, fseqIn := (x.fseqIn + 1) % 65536, nak := false, unacked := left,
          replays := if left.length < x.unacked.length then 0 else x.replays }
        becomes (.frameReceive p fseq ack false true corr uncorr []) s.now y ∧
        (∀ k, x.st = .active → malformed x.role k = false → s.heldDown k = false → k.ptype ≠ 7 → k.ptype ≠ 8 →
          (k.ptype = ptRACC → s.raccWaits k = false) →
          becomes (.frameReceive p fseq ack false true corr uncorr [k]) s.now { y with
            seqIn := k.seq, adv := SMap.upd 0 x.adv k.vc (· - (1 + k.len)),
            rxq := SMap.upd [] x.rxq k.vc (· ++ [k]) }))) ∧
    (x.st ∈ [PortSt.down, .reset, .disabled] →
      ∀ ok, exec (.frameReceive p fseq ack nak ok corr uncorr pkts) s = .next s) ∧
    (∀ fr rest, x.st ∈ [PortSt.training, .held, .active] → x.unacked = fr :: rest → x.replays < 8 →
      let t := max s.now (fr.sentAt + 4000)
      becomes (.replayTimeout p) t { x with
        unacked := x.unacked.map fun (f : Frame) => { f with sentAt := t }, replays := x.replays + 1,
        regs := { x.regs with linkCnt := bumpFld x.regs.linkCnt 48 16 1 } })

/-- R337, R360, R361, R364, R365: a port of no job role with an empty receive buffer that leaves service, by a reset
command of the secure domain, by DISABLE, or with LINK_DOWN after eight replays without progress or 100,000 ticks without
a frame, drops what it had to send and to have acknowledged, clears the registers of its reset domain, and trains
again, or stays DISABLED. Nothing else of the device changes; ERR changes only when a failure is recorded.
Next states answered for: linkDownTimeout, portReset, portDisable. -/
def Obligations.PortsLeaveService : Prop :=
  ∀ (s : State) (who : Nat) (p : Fin 6) (v : W64), Settled s → Untraced s →
    let x := s.port p.val
    (x.role = 0 ∨ x.role = 6) → x.rxq = [] → (∀ e ∈ s.folds, e.2.ctxs = []) →
    let left := fun (i : Instr) (t : Nat) (dis : Bool) (err : Nat) => ∃ s' y, exec i s = .next s' ∧
      PortBecomes p.val y { s with now := t } s' ∧
      y.st = (if dis then .disabled else if x.role = 0 then .down else .training) ∧ y.role = x.role ∧ y.disable = dis ∧
      y.regs = { x.regs with err := err, tofs := 0, tofsAt := 0, rxErr := 0, rxCnt := 0 } ∧
      y.txq = [] ∧ y.unacked = [] ∧ y.rxq = [] ∧ y.credits = [] ∧ y.seq = 0 ∧ y.fseqOut = 0 ∧ y.fseqIn = 0 ∧
      y.nak = false ∧ y.replays = 0 ∧ y.times = [] ∧ y.timeReq = [] ∧ y.width = 0 ∧ y.peer = []
    (x.st ∈ [PortSt.down, .training, .held, .active] →
      (s.hubOn = true → (who = 2 ∨ who = 3 ∨ who = 4) →
        (v.getLsbD 0 = true → left (.portReset who p v) s.now (v.getLsbD 1) x.regs.err) ∧
        (v.getLsbD 1 = true → left (.portDisable who p v) s.now true x.regs.err)) ∧
      (s.hubOn = true → ¬ (who = 2 ∨ who = 3 ∨ who = 4) → exec (.portDisable who p v) s = .next s)) ∧
    (x.st ∈ [PortSt.held, .active] → x.disable = false →
      left (.linkDownTimeout p) (max s.now (match x.unacked with
        | fr :: _ => if 8 ≤ x.replays then fr.sentAt + 4000 else x.decodeAt + 100000
        | [] => x.decodeAt + 100000)) false 0x0C)

/-- R358, R359, R344, R348: TIME_EXCHANGE queues a request whose stamp the port remembers, no earlier than 1,048,576 ticks after
the last, in service, and sixteen times in a training. A request is answered with the tick at which it came; the reply to a remembered request enters
the offset and the delay, the mean of the latest sixteen, and forgets the request. A CREDIT packet adds its four amounts
to the credits of the four channels. Only what sending touches changes besides.
Next states answered for: time, timeExchange, credit. -/
def Obligations.TimeAndCredits : Prop :=
  ∀ (s : State) (p : Fin 6) (k : Packet) (rest : List Packet),
    let x := s.port p.val
    (Settled s → Untraced s → x.st ∈ [PortSt.held, .active] →
      let t := max s.now (x.timeAt + 1048576)
      ∃ s', exec (.timeExchange p) s = .next s' ∧ OnlySends p.val ({ s with now := t }.setPort p.val { x with
        timeAt := t, timeN := x.timeN + 1 }) s' ∧
        ((∀ vc, x.queue vc = []) → x.unacked.length < 64 →
          (s'.port p.val).timeReq = x.timeReq ++ [BitVec.ofNat 64 t])) ∧
    (Settled s → Untraced s → x.st = .training →
      (x.timeN < 16 → ∃ s', exec (.timeExchange p) s = .next s' ∧ OnlySends p.val (s.setPort p.val { x with
        timeAt := s.now, timeN := x.timeN + 1 }) s') ∧
      (16 ≤ x.timeN → exec (.timeExchange p) s = .next s)) ∧
    (Received s p.val 4 .time k rest →
      let came := (x.timeIn.head?).getD s.now
      let base := s.setPort p.val { (s.took p.val 4 rest).port p.val with timeIn := x.timeIn.drop 1 }
      (k.fA = 0 → 64 ≤ x.unacked.length → ∃ s' r more, exec (.time p) s = .next s' ∧
        OnlySends p.val base s' ∧
        SMap.get [] (s'.port p.val).txq 4 = x.queue 4 ++ ⟨r, none⟩ :: more ∧
        r.ptype = 7 ∧ r.fA = 1 ∧ r.addr = fld k.w2 0 48 ∧ r.w3 = BitVec.ofNat 64 came) ∧
      (∀ t1, k.fA = 1 → x.timeReq = [t1] → fld t1 0 48 = k.addr → x.times = [] →
        let off : Int := (k.w3.toNat - t1.toNat) - (came - k.w2.toNat)
        let delay : Int := (came - t1.toNat) - (k.w2.toNat - k.w3.toNat)
        let y := base.port p.val
        ∃ s', exec (.time p) s = .next s' ∧ OnlySends p.val (s.setPort p.val { y with
          timeReq := [], times := [(off, delay)],
          regs := { x.regs with
            tofs := put 0 40 (wrapNat 40 (8 * off)) ||| put 40 24 (wrapNat 24 (8 * delay)),
            tofsAt := BitVec.ofNat 64 came } }) s')) ∧
    (Received s p.val 4 .credit k rest → (∀ vc, x.queue vc = []) → ∃ s', exec (.credit p) s = .next s' ∧
      OnlySends p.val (s.took p.val 4 rest) s' ∧
      ∀ vc, vc < 4 → SMap.get 0 (s'.port p.val).credits vc = SMap.get 0 x.credits vc + fld k.w1 (16 * vc) 16)

/-- R344, R345, R351–R357: DATA writes its body, but for the excluded head and tail bytes, at ADDR; SIGNAL adds its amount to the
slot of the logical fold it names; MAILBOX stores its word in the box that byte 8 names, as agent 8 + p, or as agent 4
when the partner's shepherd sent it; WAKE raises the fabric wake event while the folds are down. The packet leaves the
buffer and its credits go back. One that R351 or R355 refuses or discards writes and adds nothing, is counted, and the
first is recorded in DRV_RX_ERR. Nothing else changes. The refusals are stated where no job is stopped by them: of AUX,
or with no live job.
Next states answered for: data, signal, mailbox, wake. -/
def Obligations.PacketsPerformed : Prop :=
  ∀ (s : State) (p : Fin 6) (vc : Fin 4) (k : Packet) (rest : List Packet),
    let x := s.port p.val
    let taken := fun (c : Nat) => s.took p.val c rest
    let noted := fun (c st : Nat) (lo : Nat) =>
      let y := (taken c).port p.val
      (taken c).setPort p.val { y with regs := { y.regs with
        rxErr := if fld x.regs.rxErr 0 8 ≠ 0 then x.regs.rxErr
          else put 0 8 st ||| put 8 4 k.ptype ||| put 12 2 k.vc ||| put 16 48 (if k.ptype = 3 then k.fB % 4096 else k.addr),
        rxCnt := bumpFld x.regs.rxCnt lo 32 1 } }
    let gives := fun (i : Instr) (t : State) => ∃ s', exec i s = .next s' ∧ OnlySends p.val t s'
    (Received s p.val vc.val .data k rest → s.ue = [] →
      let n := 64 * k.len
      let st := if x.role = 6 then (if k.addr < 0x00F000000000 then s.accStatus 1 .hostWrite k.addr n else .bounds)
        else if (s.res.filling = true ∨ s.host.st = .loaded) ∧ x.role = 3 ∧ k.vc = vcRES ∧ s.inPool k.addr n = true then .ok
        else s.accStatus (8 + p.val) .write k.addr n
      let a := k.addr + k.fC % 64
      let bs := (k.body.take (n - (k.fC >>> 8) % 64)).drop (k.fC % 64)
      (st = .ok → gives (.data p vc) ((taken vc.val).write (8 + p.val) a bs) ∧
        ((taken vc.val).write (8 + p.val) a bs).mem = putBytes s.mem a bs) ∧
      (st ≠ .ok → (x.role = 6 ∨ s.jobLive = false) → gives (.data p vc) (noted vc.val st.code 0))) ∧
    (Received s p.val vc.val .signal k rest →
      let f := s.physOf k.fB
      let n := k.fA % 64
      let e := s.slot f n
      (k.fB ≤ 319 → (s.fold f).island.graze = false → e.waiters = [] → gives (.signal p vc)
        ((taken vc.val).setSlot f n { e with count := min (e.count + k.fC) 65535, ovf := e.ovf || decide (65535 < e.count + k.fC) })) ∧
      (319 < k.fB → (x.role = 6 ∨ s.jobLive = false) → gives (.signal p vc) (noted vc.val 0x03 0))) ∧
    (Received s p.val 3 .mailbox k rest →
      let n := (k.body.getD 8 0).toNat
      let who := if x.role = 3 ∧ k.src = 2 then 4 else 8 + p.val
      let w := BitVec.ofNat 64 (leNat (k.body.take 8))
      let b := s.mbox n
      let boxed := fun (b : MBox) => { taken 3 with mbx := { s.mbx with boxes := SMap.set {} s.mbx.boxes n b } }
      let may := (16 ≤ n ∧ n < 64) ∨ (n < 16 ∧ who = 4) ∨ ((n = 70 ∨ n = 71) ∧ who = 4)
      (72 ≤ n → gives (.mailbox p) (noted 3 0x03 0)) ∧
      (n < 72 → may → (64 ≤ n ∨ fld (s.mboxCfg n) 0 13 ≠ 0) → b.full = false → (s.mboxRcv n = 2 ∨ s.mboxRcv n = 3) →
        gives (.mailbox p) (boxed { b with word := w, full := true, sender := who })) ∧
      (n < 72 → may → (64 ≤ n ∨ fld (s.mboxCfg n) 0 13 ≠ 0) → b.full = true → gives (.mailbox p)
        { noted 3 0x09 32 with
          mbx := { s.mbx with boxes := SMap.set {} s.mbx.boxes n { b with lost := satAdd 16 b.lost 1 } } })) ∧
    (Received s p.val 3 .wake k rest → gives (.wake p)
      (if (s.pwr.state = 2 ∨ s.pwr.state = 3 ∨ s.pwr.entering ≠ none) ∧ (∀ w ∈ s.pwr.wakes, w.1 ≠ 4) then
        { taken 3 with pwr := { s.pwr with wakes := s.pwr.wakes ++ [(4, s.now)] } } else taken 3))

/-- R354, R492–R496, R504, R505, R526: the doorbell hands the command processor the eight words of a command slot that is
free, and a CMD message on AUX the 64-byte command at its ADDR. A command whose header, type or reserved bits fail,
or whose result slot is busy, is recorded in HST_CMD_ERR, if none is, and raises vector 1. Otherwise the result slot
becomes BUSY with the next SEQ and GEN; a command that then fails a check of R494 has its result at once, and one that
passes waits. READ_REQ on AUX returns bytes that the host could read. How many, and the command slot a CMD's failure
names, are free values (log entries 43 and 44). A CMD whose ADDR lies in register space is refused with BOUNDS.
Next states answered for: cmd, readReq, doorbell. -/
def Obligations.CommandsTaken : Prop :=
  ∀ (s : State) (p : Fin 6) (k : Packet) (rest : List Packet) (v : W64), Settled s → Untraced s →
    let taken := s.took p.val 3 rest
    let accepts := fun (base : State) (ws : List W64) (cslot : Nat) (aux : Option Nat) (ends : State → Prop) =>
      let c : Cmd := { words := ws, cslot := cslot, aux := aux }
      let st := firstFail [(fld (wd ws 0) 8 4 ≠ 1, .version), (fld (wd ws 0) 0 8 ≠ 0x70, .unsupported),
        (fld (wd ws 0) 12 20 ≠ 0 || fld (wd ws 1) 16 48 ≠ 0, .reservedNonzero), (bit (s.resWord c.rslot 0) 49, .busy)]
      let seq := (s.host.seq + 1) % 2 ^ 32
      let gen := (fld (s.resWord c.rslot 0) 32 16 + 1) % 65536
      let r := s.host.regs
      (st ≠ .ok → fld r.cmdErr 0 8 = 0 → bit (s.host.msix 3) 32 = false →
        ends { base with host := { base.host with
          regs := { r with cmdErr := put 0 8 st.code ||| put 8 5 cslot ||| put 32 32 c.tag },
          msi := s.host.msi ++ [1] } }) ∧
      (st = .ok → s.cmdCheck c = .ok → ends { base with host := { base.host with
        seq := seq, queue := s.host.queue ++ [c],
        results := SMap.set 0 s.host.results (8 * c.rslot) (put 0 32 seq ||| put 32 16 gen ||| put 49 1 1 ||| put 56 8 1) } })
    (Received s p.val 3 .cmd k rest → isRegSpace k.addr = false →
      let (w, t) := taken.fresh
      accepts t (s.blockAt k.addr) (fld w 0 5) (some p.val) fun t =>
        ∃ s', exec (.cmd p) s = .next s' ∧ OnlySends p.val t s') ∧
    (Received s p.val 3 .cmd k rest → isRegSpace k.addr = true → ∃ s', exec (.cmd p) s = .next s' ∧
      fld (s'.port p.val).regs.rxCnt 0 32 = min (fld (s.port p.val).regs.rxCnt 0 32 + 1) (2 ^ 32 - 1) ∧
      s'.host = s.host ∧ s'.mem = s.mem) ∧
    (s.hubOn = true → s.host.ready = true →
      let n := fld v 0 5
      let ws := (List.range 8).map fun i => SMap.get 0 s.host.slots (8 * n + i)
      let (w, t) := s.fresh
      let base := { t with host := { t.host with taken := SMap.set 0 s.host.taken n (1 + s.now + w.toNat % 1001) } }
      SMap.get 0 s.host.taken n = 0 → accepts base ws n none fun t => exec (.doorbell v) s = .next t) ∧
    (Received s p.val 3 .readReq k rest → s.ue = [] →
      let (w, t) := taken.fresh
      let n := 64 * (1 + fld w 0 8)
      k.addr < 0x00F000000000 → s.accStatus 1 .hostRead k.addr n = .ok →
        ∃ s', exec (.readReq p) s = .next s' ∧ OnlySends p.val t s')

/-! ### Gradient exchange (chapter 11) -/

/-- R374, R375, R386, R387: an instance that waits for pool space takes its windows when there is room: one window for
each chunk, with the exponent of R387, and the mark of a small tensor (R410); one for which there is still no room goes
on waiting.
R382–R385, R388, R393, R403: an FP32 contribution of a member whose copy may fill its slot is added to the chunk's window once and
only once: its slot is marked, and the member is the one chosen for it. A second contribution for a slot, from the same
member, is counted in COL_DUP; one from a member whose slot another copy fills is counted as late. It is stated of a
chunk that some other slot still misses, and of an instance that has its windows. A packet that fails the checks of R383 is refused as R352 gives.
Next states answered for: racc, instanceAllocate. -/
def Obligations.InstanceAllocatesAndGathers : Prop :=
  (∀ (s : State) (plan : Nat) (x : Inst), Settled s → s.ue = [] →
     (s.col.insts.find? fun y => y.plan = plan && y.waiting) = some x → s.inst plan x.step = some x → x.alloc = false →
     x.waiting = true → x.released = false →
     (s.poolRoom plan = true → x.started = none → ∃ s', exec (.instanceAllocate plan) s = .next s' ∧
       s' = { s with col := { s.col with insts := s'.col.insts } } ∧
       s'.inst plan x.step = some { x with
         alloc := true, waiting := false,
         chunks := (List.range (s.planChunks plan)).map fun c => { e := (s.windowE plan x.step c).1 },
         small := decide (planComp (s.planP plan) ≠ 0) && decide (s.planSlots plan < s.col.small) } ∧
       (∀ n m, (n, m) ≠ (plan, x.step) → s'.inst n m = s.inst n m)) ∧
     (s.poolRoom plan = false → exec (.instanceAllocate plan) s = .next s)) ∧
  (∀ (s : State) (p : Fin 6) (k : Packet) (rest : List Packet) (step : Nat) (x : Inst), Received s p.val 1 .racc k rest →
     let n := k.fA % 1024
     let c := ((k.addr - (s.planTensor n 1).base) / s.sumUnit n) / 4096
     let idx := k.fB % 256
     let slot := s.planSlot n idx
     let keeps := fun (s' : State) => s'.mem = s.mem ∧ s'.res = s.res ∧ (∀ u, s'.th u = s.th u) ∧
       ∀ i m, (i, m) ≠ (n, step) → SameInst (s'.inst i m) (s.inst i m)
     (s.raccCheck k = .ok → s.planStep16 n (k.fC / 65536) = some step → s.inst n step = some x → x.alloc = true →
       x.released = false → k.fC % 16 = 0 → idx < s.planN n → slot ≠ s.planSlot n (s.planMe n) → c < x.chunks.length →
       (SMap.get 0 x.copy slot = 0 → slot ∉ (x.chunk c).entered → (x.chunk c).entered.length + 1 < s.planN n →
         ∃ s' x', exec (.racc p) s = .next s' ∧ keeps s' ∧ SameInst (s'.inst n step) (some x') ∧
           x' = (({ x with copy := SMap.set 0 x.copy slot (idx + 1) }).offer (s.planPair n) c
             (leW32 (min 4096 (s.chunkLen n c - ((k.addr - (s.planTensor n 1).base) / s.sumUnit n) % 4096)) k.body)).1.mark c slot ∧
           slot ∈ (x'.chunk c).entered ∧ s'.col.dup = s.col.dup ∧ s'.col.cnt = s.col.cnt) ∧
       (SMap.get 0 x.copy slot = idx + 1 → slot ∈ (x.chunk c).entered →
         ∃ s', exec (.racc p) s = .next s' ∧ keeps s' ∧ SameInst (s'.inst n step) (some x) ∧
           s'.col.dup = bumpFld s.col.dup 0 32 1) ∧
       (SMap.get 0 x.copy slot ≠ 0 → SMap.get 0 x.copy slot ≠ idx + 1 →
         ∃ s', exec (.racc p) s = .next s' ∧ keeps s' ∧ SameInst (s'.inst n step) (some x) ∧
           s'.col.cnt = bumpFld s.col.cnt 48 16 1)) ∧
     (s.raccCheck k ≠ .ok → ((s.port p.val).role = 6 ∨ s.jobLive = false) → ∃ s', exec (.racc p) s = .next s' ∧
       s' = { s with ports := s'.ports, col := s'.col } ∧ CountsSent s.col s'.col ∧
       fld (s'.port p.val).regs.rxCnt 0 32 = min (fld (s.port p.val).regs.rxCnt 0 32 + 1) 4294967295 ∧
       (fld (s.port p.val).regs.rxErr 0 8 = 0 → fld (s'.port p.val).regs.rxErr 0 8 = (s.raccCheck k).code)))

/-- R385, R390, R401, R404: BACKUP_REQ marks the instance of the backup it names, so that it sends its copy when it has one;
RESEND for the ring clears the window of an RS_AG chunk at the exponent it gives, marks it replayed and counts it in
COL_CNT. Either, when it is for another member, is only passed on.
Next states answered for: backupReq, resend. -/
def Obligations.CollectiveMessages : Prop :=
  ∀ (s : State) (p : Fin 6) (k : Packet) (rest : List Packet) (step : Nat),
    let w := msgWord k
    let n := fld w 0 10
    (s.planWords n).isSome = true → s.msgStep n (fld w 10 16) = some step →
    (Received s p.val 3 .backupReq k rest →
      (s.planMe n ≠ s.planN n + fld w 26 8 → ∃ s', exec (.backupReq p) s = .next s' ∧ PortsSend (s.took p.val 3 rest) s') ∧
      (∀ x, s.planMe n = s.planN n + fld w 26 8 → s.inst n step = some x → x.asked = false → x.started = none →
        ∃ s', exec (.backupReq p) s = .next s' ∧ SameInst (s'.inst n step) (some { x with asked := true }) ∧
          PortsSend { s.took p.val 3 rest with col := { s.col with insts := s'.col.insts } } s')) ∧
    (Received s p.val 3 .resend k rest →
      (fld w 26 8 ≠ 0xFF → fld w 26 8 ≠ s.planMe n → ∃ s', exec (.resend p) s = .next s' ∧
        PortsSend (s.took p.val 3 rest) s') ∧
      (∀ x c, fld w 26 8 = 0xFF → s.planRsAg n = true → s.inst n step = some x → x.alloc = true → x.started = none →
        c < x.chunks.length →
        ((msgChunks k).filter (· < s.planChunks n)) = [c] →
        ∃ s' x', exec (.resend p) s = .next s' ∧ s'.inst n step = some x' ∧
          (x'.chunk c).e = min (sext 9 (fld w 42 9) + 9) 128 ∧ (x'.chunk c).replay = true ∧ (x'.chunk c).own = false ∧
          x'.ovfN = x.ovfN + 1 ∧ (∀ i, i / 4096 = c → SMap.get {} x'.win i = {}) ∧
          s'.col.cnt = bumpFld s.col.cnt 0 16 1 ∧ PortsSend { s.took p.val 3 rest with col := s'.col } s'))

/-- R392, R394, R403, R405, R406, R408, R414: an instance whose every contribution is in completes: it is done, its DONE slot
counts for each fold of its READYs, and the plan record says so. A deadline sets the instance's expiry; when as long
again has passed with a contribution still missing, the instance ends with TIMEOUT and the job stops to replay.
Next states answered for: reduceComplete, backupDeadline, reduceTimeout. -/
def Obligations.InstancesEnd : Prop :=
  ∀ (s : State) (plan step : Nat) (x : Inst), Settled s → Untraced s → s.ue = [] → s.inst plan step = some x →
    let slot := planDoneSlot (s.planP plan)
    let d := planDeadline (s.planP plan)
    (∀ n, x.done = false → s.instFull x = true → x.lfolds = [n] → x.ovfN = 0 → x.backup = 0 → s.planPair plan = true →
      let f := s.physOf n
      (s.fold f).island.graze = false → (s.slot f slot).waiters = [] →
      ∃ s' x', exec (.reduceComplete plan step) s = .next s' ∧ s'.inst plan step = some x' ∧
        x' = { x with done := true, status := 0, nonfinN := x'.nonfinN } ∧
        (s'.slot f slot).count = min ((s.slot f slot).count + 1) 65535 ∧
        SMap.get 0 s'.col.planRec (8 * plan) = put 0 48 step ||| put 48 8 0 ||| put 56 1 (b2n x.small) ∧
        SMap.get 0 s'.col.planRec (8 * plan + 4) = BitVec.ofNat 64 s.now ∧
        s'.mem = s.mem ∧ s'.ports = s.ports ∧ s'.res = s.res ∧ s'.host = s.host) ∧
    (∀ t, x.started = some t → x.expired = none → d ≠ 0 → x.done = false →
      ∃ s', exec (.backupDeadline plan step) s = .next s' ∧
        PortsSend ({ s with now := max s.now (t + d) }.setInst { x with expired := some (max s.now (t + d)) }) s') ∧
    (∀ t j, x.expired = some t → x.done = false →
      (if s.planRsAg plan then s.instFull x = false else s.emptySlots x ≠ []) → s.job = some j →
      s.host.st = .running → (∀ q, (s.port q).st ≠ .reset) → ∃ s', exec (.reduceTimeout plan step) s = .next s' ∧ s'.host.st = .recovering ∧
        s'.res.stopped = true ∧ s'.col.insts = [] ∧ s'.now = max s.now (t + d) ∧ s'.col.lastErr = 0x0B ∧
        fld (SMap.get 0 s'.col.planRec (8 * plan)) 48 8 = 0x0B)

/-! ### Resilience (chapter 12) -/

/-- R426, R427, R430, R432, R435, R442, R443: what the control records of the mirror and of the stripes do. BEAT marks only that a
record came; MIRROR_DONE closes the fills and is answered; MIRROR_ACK is noted, and lets a leaf of the commit tree whose
step is committed send its VOTE; SHARE_ACK counts toward the owner's snapshot and SNAP_OWN toward the group's, and either
is passed on when another member is named; PAIR fixes the partner's entry count, and whether the pair shares a feed, from
the FEED_GRP fields of the handshakes.
Next states answered for: mirrorDone, mirrorAck, shareAck, snapOwn, beat, pair. -/
def Obligations.MirrorAndStripeRecords : Prop :=
  ∀ (s : State) (p : Fin 6) (k : Packet) (rest : List Packet),
    let step := fld (wd (recWords k) 0) 16 48
    let w1 := wd (recWords k) 1
    let y := (s.took p.val 2 rest).port p.val
    let u := (s.took p.val 2 rest).setPort p.val { y with recAt := s.now }
    let r := s.res
    let sends := fun (i : Instr) (t : State) => ∃ s', exec i s = .next s' ∧ PortsSend t s'
    (Received s p.val 2 (.ctrl 0x0A) k rest → sends (.beat p) u) ∧
    (Received s p.val 2 (.ctrl 0x03) k rest → r.filling = false → s.host.st ≠ .loaded → sends (.mirrorDone p)
      { u with res := { r with pair := { r.pair with fillIn := false, fillEnts := [] } } }) ∧
    (Received s p.val 2 (.ctrl 0x04) k rest →
      (r.devN = none → sends (.mirrorAck p) { u with res := { r with mirAck := some step } }) ∧
      (r.devN = some step → s.host.st = .running → step = s.nextStep → r.voted ≠ some step →
        resChildren s.resHdr = [] → resParent s.resHdr ≠ 0xF → s.tallyWaits = false →
        sends (.mirrorAck p) { u with res := { r with mirAck := some step, voted := some step } })) ∧
    (Received s p.val 2 (.ctrl 0x05) k rest →
      (s.stripeElse k = true → sends (.shareAck p) u) ∧
      (∀ d, s.stripeElse k = false → s.stripeMe = fld w1 0 4 →
        (r.drains.find? fun d => d.step = step && d.begun) = some d → d.acks + 1 < s.stripeG - 1 →
        sends (.shareAck p) { u with res := { r with
          drains := r.drains.map fun (x : Drain) => if x.step = step then { x with acks := d.acks + 1 } else x } })) ∧
    (Received s p.val 2 (.ctrl 0x06) k rest →
      let owns := if (fld w1 0 4, step) ∈ r.owns then r.owns else r.owns ++ [(fld w1 0 4, step)]
      (s.stripeElse k = true → sends (.snapOwn p) u) ∧
      (s.stripeElse k = false → (∃ m, m < s.stripeG ∧ (m, step) ∉ owns) →
        sends (.snapOwn p) { u with res := { r with owns := owns } }) ∧
      (s.stripeElse k = false → s.ue = [] → (∀ m, m < s.stripeG → (m, step) ∈ owns) →
        (∀ g, r.lastGroup = some g → g < step) → ∃ s', exec (.snapOwn p) s = .next s' ∧ s'.res.lastGroup = some step)) ∧
    (Received s p.val 2 (.ctrl 0x0B) k rest →
      (s.hasPartner = false → sends (.pair p) u) ∧
      (s.hasPartner = true → ∃ s', exec (.pair p) s = .next s' ∧ PortsSend { u with res := s'.res } s' ∧
        s'.res.pair.got = true ∧ s'.res.pair.nprot = fld w1 0 13 ∧
        s'.res.pair.feed = s.peerFeed ∧ s'.res.pair.shared = s.feedsMeet))

/-- R428, R429, R458, R459, R479: VOTE of a child is noted, but while the device is stopped. GLOBAL from the parent for the next step is
the global commit: RES_COMMIT_GLB and RES_KEPT name the step, RES_KEPT_JOB the job, and RES_SNAP the snapshot if there is
one; from another port, for another step or out of RUNNING it does nothing. The first STOP makes a running or a paused
device RECOVERING; one that comes to a device that has stopped of itself is passed on, and every later one is ignored. RESUME_VOTE is noted; RESUME from the parent, after this device has voted to resume, sets it RUNNING
again.
Next states answered for: vote, global, stopRecord, resumeVote, resumeRecord. -/
def Obligations.CommitAndStopRecords : Prop :=
  ∀ (s : State) (p : Fin 6) (k : Packet) (rest : List Packet), s.ue = [] → Unreset s →
    let step := fld (wd (recWords k) 0) 16 48
    let w1 := wd (recWords k) 1
    let y := (s.took p.val 2 rest).port p.val
    let u := (s.took p.val 2 rest).setPort p.val { y with recAt := s.now }
    let r := s.res
    let sends := fun (i : Instr) (t : State) => ∃ s', exec i s = .next s' ∧ PortsSend t s'
    let status := fld w1 0 8
    let elsewhere := r.stopElse || !stopKeeps status
    let isParent := p.val = resParent s.resHdr
    (Received s p.val 2 (.ctrl 0x01) k rest →
      (r.stopped = true → r.resumeAt = none → sends (.vote p) u) ∧
      ((r.stopped = false ∨ r.resumeAt ≠ none) → r.devN = none → sends (.vote p) { u with res := { r with
        votes := SMap.set none r.votes p.val (some (step, if w1.getLsbD 63 then some (fld w1 0 48) else none)) } })) ∧
    (Received s p.val 2 (.ctrl 0x02) k rest →
      (¬ (s.host.st = .running ∧ isParent ∧ step = s.nextStep) → sends (.global p) u) ∧
      (s.host.st = .running → isParent → step = s.nextStep → s.cfg.staged = none → s.cmdOf 0x05 = none →
        ∃ s', exec (.global p) s = .next s' ∧ s'.host.st = .running ∧
          s'.res.regs.commitGlb = put 0 48 step ||| put 48 1 1 ∧ s'.res.regs.kept = s'.res.regs.commitGlb ∧
          s'.res.regs.keptJob = s.jobId ∧ s'.res.regs.commitDev = r.regs.commitDev ∧
          s'.res.regs.snap = (if w1.getLsbD 63 then put 0 48 (fld w1 0 48) ||| put 48 1 1 else r.regs.snap) ∧
          (∀ x ∈ s'.res.prog, step < x.step) ∧ (∀ x ∈ s'.res.layers, step < x.1))) ∧
    (Received s p.val 2 (.ctrl 0x07) k rest →
      (r.stopFwd = true → status ≠ Status.uncorrectable.code →
        sends (.stopRecord p) { u with res := { r with stopElse := elsewhere } }) ∧
      (r.stopFwd = false → r.stopped = true → s.host.st = .recovering → status ≠ Status.uncorrectable.code →
        sends (.stopRecord p) { u with res := { r with stopFwd := true, stopElse := elsewhere } }) ∧
      (r.stopFwd = false → r.stopped = false → (s.host.st = .running ∨ s.host.st = .paused) →
        ∃ s', exec (.stopRecord p) s = .next s' ∧ s'.host.st = .recovering ∧ s'.res.stopped = true ∧
          s'.res.stopFwd = true ∧
          (s.host.st = .running → s'.col.insts = [] ∧ s'.res.prog = [] ∧ ∀ f c t, f < 336 → (s'.thread f c t).st = .idle))) ∧
    (Received s p.val 2 (.ctrl 0x08) k rest → s.host.st ≠ .recovering → s.host.st ≠ .paused →
      sends (.resumeVote p) { u with res := { r with resumeV := insNat r.resumeV p.val } }) ∧
    (Received s p.val 2 (.ctrl 0x09) k rest →
      (¬ (isParent ∧ r.resumeSent = true ∧ (s.host.st = .recovering ∨ s.host.st = .paused)) → sends (.resumeRecord p) u) ∧
      (isParent → r.resumeSent = true → s.host.st = .recovering → w1.getLsbD 63 = false →
        ∃ s', exec (.resumeRecord p) s = .next s' ∧ s'.host.st = .running ∧ s'.res.stopped = false ∧
          s'.res.stopFwd = false ∧ s'.res.resumeSent = false ∧ s'.res.resumeV = [] ∧ s'.res.rollNeed = false ∧ s'.res.resumeAt = none))

/-- R433, R441–R443, R468: a MIRROR packet that the checks of R433 pass writes its body into the partner's copies; a SHARE or a
RESTORE for this member writes its body into the owner's region or the restore area, and notes the units that have
come (a RESTORE only while the device is stopped); the SHARE that makes an owner's snapshot whole is acknowledged to the
owner; one for another member is passed on. A packet outside its region writes nothing and is refused with BOUNDS.
Next states answered for: mirror, share, restore. -/
def Obligations.CopiesReceived : Prop :=
  ∀ (s : State) (p : Fin 6) (k : Packet) (rest : List Packet), s.ue = [] → Awake s →
    let u := s.took p.val 2 rest
    let o := stOwner k
    let slot := stSlotB k
    let step := k.fC / 65536
    let base := s.slotAddr o slot
    let size := s.slotSize o slot
    let here := s.hasStripe = true ∧ (o, slot) ∈ s.slotList
    let mine := fun (x : Nat × Nat × Nat × Nat) => decide (x.1 = o) && decide (x.2.1 = slot) && decide (x.2.2.1 = step)
    let held := (s.res.shared.filter mine).length
    let back := Config.restoreBase s.jobId
    let refused := fun (i : Instr) => ((s.port p.val).role = 6 ∨ s.jobLive = false) → ∃ s', exec i s = .next s' ∧
      s' = { s with ports := s'.ports } ∧
      fld (s'.port p.val).regs.rxCnt 0 32 = min (fld (s.port p.val).regs.rxCnt 0 32 + 1) 4294967295 ∧
      (fld (s.port p.val).regs.rxErr 0 8 = 0 → fld (s'.port p.val).regs.rxErr 0 8 = 0x03)
    let stores := fun (i : Instr) (also : State → Prop) => ∃ s', exec i s = .next s' ∧
      PortsSend { u.write 0 k.addr k.body with res := s'.res } s' ∧ s'.mem = putBytes s.mem k.addr k.body ∧ also s'
    (Received s p.val 2 .mirror k rest →
      (s.mirrorOk k = true → mirIdx k ≠ 0xFFE → s.res.pair.refill = false →
        stores (.mirror p) fun s' => s'.res = s.res) ∧
      (s.mirrorOk k = false → s.res.pair.refill = false → refused (.mirror p))) ∧
    (Received s p.val 2 .share k rest →
      (s.stripeElse k = true → ∃ s', exec (.share p) s = .next s' ∧ PortsSend u s') ∧
      (s.stripeElse k = false → here → base ≤ k.addr → k.addr + 64 * k.len ≤ base + size →
        64 * (held + k.len) < size →
        stores (.share p) fun s' => ∀ i, i < k.len → (o, slot, step, k.addr + 64 * i) ∈ s'.res.shared) ∧
      (∀ q, s.stripeElse k = false → here → base ≤ k.addr → k.addr + 64 * k.len ≤ base + size →
        64 * (held + k.len) = size → (∀ i, i < k.len → (o, slot, step, k.addr + 64 * i) ∉ s.res.shared) →
        s.towards o = some q → (s.port q).st = .active → 64 ≤ (s.port q).unacked.length →
        stores (.share p) fun s' => (∀ x ∈ s'.res.shared, mine x = false) ∧ (s'.port q).queue 2 = (u.port q).queue 2 ++
          [⟨mkCtrl 0x05 (s.snap16 step) [put 0 4 o] o, none⟩]) ∧
      (s.stripeElse k = false → (¬ here ∨ k.addr < base ∨ base + size < k.addr + 64 * k.len) →
        refused (.share p))) ∧
    (Received s p.val 2 .restore k rest →
      (s.stripeElse k = true → ∃ s', exec (.restore p) s = .next s' ∧ PortsSend u s') ∧
      (s.stripeElse k = false → s.hasStripe = true → back ≤ k.addr →
        k.addr + 64 * k.len ≤ back + Config.restoreSize s.jobId →
        (s.res.stopped = false → stores (.restore p) fun s' => s'.res = s.res) ∧
        (s.res.stopped = true → s.res.resumeAt = none → stores (.restore p) fun s' => ∀ i, i < k.len →
          (step, (k.addr + 64 * i - back) / 65536, (k.addr + 64 * i - back) % 65536 / 64) ∈ s'.res.restoreGot)) ∧
      (s.stripeElse k = false →
        (s.hasStripe = false ∨ k.addr < back ∨ back + Config.restoreSize s.jobId < k.addr + 64 * k.len) →
        refused (.restore p)))

/-- R427, R432, R451–R453, R456, R462: BEAT goes out on every job port in service, no sooner than 1,000,000 ticks after the
last. MIRROR_DONE goes to the partner once the
step is committed here and its packets are acknowledged. A peer silent for 10,000,000 ticks, or away for 1,000,000,000,
is lost. A fold whose clock runs and that misses four beats of 65,536 ticks is declared failed; one whose clock is stopped does not
beat, and nothing happens. The failed fold's clock stops, and where it ran a logical fold a
spare is taken and its rebuild starts; the shepherd's miss is dated, and after 100,000,000 ticks it is gone. The losses
are stated with no live job, which nothing then stops.
Next states answered for: beatSend, peerLost, mirrorDoneSend, heartbeatMiss, shepherdRestartTimeout,
portReturnTimeout. -/
def Obligations.Watching : Prop :=
  ∀ (s : State) (p : Fin 6) (f : FoldNo), Settled s → Untraced s → s.ue = [] →
    let x := s.port p.val
    ((∀ q, q < 6 → 64 ≤ (s.port q).unacked.length) → ∃ s', exec .beatSend s = .next s' ∧
      PortsSend { s with now := max s.now (s.res.beatAt + 1000000),
                         res := { s.res with beatAt := max s.now (s.res.beatAt + 1000000) } } s' ∧
      ∀ q, q < 6 → (s'.port q).queue 2 = (s.port q).queue 2 ++
        if (s.port q).role ≠ 0 ∧ (s.port q).role ≠ 6 ∧ (s.port q).st = .active
        then [⟨mkCtrl 0x0A s.nextStep [], none⟩] else []) ∧
    (∀ n, s.res.devN = some n → s.host.st = .running → s.partnerUp = true → s.res.mirDone ≠ some n →
      s.res.pair.fillMine = [] → s.mirrorClear n = true → ∃ s', exec .mirrorDoneSend s = .next s' ∧
        PortsSend { s with res := { s.res with mirDone := some n, pair := { s.res.pair with fillOut := false } } } s') ∧
    (s.jobLive = false → s.job ≠ none → x.role ≠ 0 → x.role ≠ 6 → p.val ∉ s.res.lost →
      (x.st = .active → x.rxq = [] → x.disable = false → ∃ s', exec (.peerLost p) s = .next s' ∧ p.val ∈ s'.res.lost ∧
        s'.now = max s.now (x.recAt + 10000000) ∧ (s'.port p.val).st = .training ∧ s'.mem = s.mem) ∧
      (∀ t, x.awayAt = some t → x.st = .training → ∃ s', exec (.portReturnTimeout p) s = .next s' ∧
        p.val ∈ s'.res.lost ∧ s'.now = max s.now (t + 1000000000) ∧ (s'.port p.val).awayAt = none ∧ s'.mem = s.mem)) ∧
    ((s.fold f).clocked = false → exec (.heartbeatMiss (16 + f.val)) s = .next s) ∧
    (s.jobLive = false → f.val ∉ s.res.failedF → (s.fold f).clocked = true →
      (s.logicalOf f.val = none → s.res.rebuild = none → ∃ s', exec (.heartbeatMiss (16 + f.val)) s = .next s' ∧
        f.val ∈ s'.res.failedF ∧ f.val ∉ s'.res.spares ∧ (s'.fold f.val).island.stopped = true ∧
        s'.now = max s.now ((s.fold f).island.cycFrom + 262144) ∧ s'.mem = s.mem) ∧
      (∀ n a, s.logicalOf f.val = some n → s.res.rebuild = none → a ∈ s.res.spares → a ≠ f.val →
        ∃ s' r, exec (.heartbeatMiss (16 + f.val)) s = .next s' ∧ f.val ∈ s'.res.failedF ∧
          (s'.fold f.val).island.stopped = true ∧ s'.res.rebuild = some r ∧ r.lfold = n ∧ r.old = f.val ∧
          r.phase = .test ∧ r.spare ∈ s.res.spares ∧ r.spare ≠ f.val ∧ r.spare ∉ s'.res.spares)) ∧
    (∃ s', exec (.heartbeatMiss 2) s = .next s' ∧ s'.sec.shepAt = some (max s.now (s.cfg.bootAt + 262144))) ∧
    (∀ t, s.sec.shepAt = some t → exec .shepherdRestartTimeout s
      = .next { s with now := max s.now (t + 100000000), sec := { s.sec with shepGone := true } })

/-- R463, R464: a rebuild takes the spare through its self-test, the clearing of its store, which then reads +0 throughout, and the
map: FLD_MAP of the logical fold names the spare, and its count of rebuilds is one higher. A spare that fails its test
is declared failed in its turn, and another is tried.
Next states answered for: test, clear, map. -/
def Obligations.RebuildSteps : Prop :=
  ∀ (s : State) (r : Rebuild), Settled s → Untraced s → s.ue = [] → s.res.rebuild = some r → r.spare < 336 →
    let phaseOf := fun (ph : RbPhase) => some { r with phase := ph }
    (r.phase = .test → exec (.test true) s = .next { s with res := { s.res with rebuild := phaseOf .clear } }) ∧
    (∀ a, r.phase = .test → s.jobLive = false → r.spare ∉ s.res.failedF → s.logicalOf r.spare = none →
      s.res.rebuildQ = [] → a ∈ s.res.spares → a ≠ r.spare → s.host.st ≠ .recovering → s.host.st ≠ .paused →
      ∃ s' r', exec (.test false) s = .next s' ∧ r.spare ∈ s'.res.failedF ∧ s'.res.rebuild = some r' ∧
        r'.lfold = r.lfold ∧ r'.old = r.old ∧ r'.phase = .test ∧ r'.spare ≠ r.spare) ∧
    (r.phase = .clear → ∃ s', exec .clear s = .next s' ∧ s'.res = { s.res with rebuild := phaseOf .map } ∧
      (∀ o, o < 0x400000 → s'.byteAt (0x028000000000 + 0x01000000 * r.spare + o) = 0) ∧
      (∀ a, ¬ (0x028000000000 + 0x01000000 * r.spare ≤ a ∧ a < 0x028000000000 + 0x01000000 * r.spare + 0x400000) →
        rdByte s'.mem a = rdByte s.mem a) ∧
      (∀ g, g ≠ r.spare → s'.fold g = s.fold g)) ∧
    (r.phase = .map → r.lfold < 320 → s.res.rebuildQ = [] → s.host.st ≠ .recovering → s.host.st ≠ .paused →
      ∃ s', exec .map s = .next s' ∧ s'.res.rebuild = none ∧
        s'.fldMapReg r.lfold = put 0 12 r.spare ||| put 16 12 (min (fld (s.fldMapReg r.lfold) 16 12 + 1) 4095) ∧
        (∀ n, n ≠ r.lfold → s'.fldMapReg n = s.fldMapReg n))

/-! ### The host interface and the mailboxes (chapter 13) -/

/-- R4, R271, R480–R483, R485–R491, R510, R528, R555: what the host does on PCI Express besides commands. A 32-bit access to a
64-bit register changes nothing, reads all-ones, and is counted and recorded, also where the fold is not in service, which
is refused besides; the MSI-X table takes 32-bit accesses.
BAR2 reads and writes the interleaved bytes that its window names when the pages allow the host; a refused access reads
all-ones, writes nothing and is counted, apart where the page is secure. A poisoned write is discarded and reported.
Configuration space answers once OFFLINE has been read, and then R481's identifiers where they stand, which no write
changes; a write is kept, and one to the link's control field enables L1, which without that is not entered. The exit from
L1 raises the host wake event.
Next states answered for: narrowAccess, bar2Read, bar2Write, poisonedTlp, configurationRequest, aspmL1Entry, pcieL1. -/
def Obligations.HostAccesses : Prop :=
  ∀ (s : State) (off len : Nat) (v : W32) (bs : List Byte) (f : FoldNo), Settled s → s.hubOn = true → s.host.ready = true →
    let h := s.host
    let r := h.regs
    let ones := fun (n : Nat) => List.replicate n (0xFF : Byte)
    let counted := fun (w : Nat) => { s with host := { h with regs := { r with
      narrowCnt := bumpFld r.narrowCnt 0 32 1, narrowAddr := put 0 26 off ||| put 26 1 w } } }
    let refused := { s with host := { h with regs := { r with boundsCnt := bumpFld r.boundsCnt 0 32 1 } } }
    let secret := { s with host := { h with regs := { r with boundsCnt := bumpFld r.boundsCnt 32 32 1 } } }
    (off < 0x1000800 → exec (.narrowAccess off true v) s = .next (counted 1) ∧
      exec (.narrowAccess off false v) s = .next ((counted 0).answer (ones 4))) ∧
    (off / 0x10000 = 0x200 + f.val →
      let cs := fun (w : Nat) => if s.inService f.val then counted w
        else { s with host := { h with regs := { (counted w).host.regs with boundsCnt := bumpFld r.boundsCnt 0 32 1 } } }
      exec (.narrowAccess off true v) s = .next (cs 1) ∧
      exec (.narrowAccess off false v) s = .next ((cs 0).answer (ones 4))) ∧
    (0x1000800 ≤ off → off < 0x1010000 → exec (.narrowAccess off true v) s = .next refused ∧
      exec (.narrowAccess off false v) s = .next (refused.answer (ones 4))) ∧
    (0x1020000 ≤ off → off < 0x1020400 → off % 4 = 0 →
      exec (.narrowAccess off false v) s = .next (s.answer (leBytes 4
        (fld (h.msix ((off - 0x1020000) / 8)) (32 * ((off - 0x1020000) / 4 % 2)) 32))) ∧
      (h.pba = 0 → exec (.narrowAccess off true v) s = .next { s with host := { h with
        msixTab := SMap.upd (msixReset ((off - 0x1020000) / 8)) h.msixTab ((off - 0x1020000) / 8) fun w =>
          setFld w (32 * ((off - 0x1020000) / 4 % 2)) 32 v.toNat } })) ∧
    ((s.cfg.boot = .up ∨ s.cfg.boot = .noImage) →
      let a := fld r.bar2Base 21 19 * 0x200000 + off
      (off + len ≤ 2 ^ 32 →
        let st := if a < 0x00F000000000 then s.accStatus 1 .hostRead a len else .bounds
        (st = .ok → s.ue = [] → exec (.bar2Read off len) s = .next (s.answer (s.readBytes a len))) ∧
        (st ≠ .ok → exec (.bar2Read off len) s
          = .next ((if st = .deniedSecure then secret else refused).answer (ones len)))) ∧
      (off + bs.length ≤ 2 ^ 32 → bs ≠ [] →
        let st := if a < 0x00F000000000 then s.accStatus 1 .hostWrite a bs.length else .bounds
        (st = .ok → s.ue = [] → exec (.bar2Write off bs) s = .next
          { s with mem := putBytes s.mem a bs, notes := (s.notify a bs.length).notes }) ∧
        (st ≠ .ok → exec (.bar2Write off bs) s = .next (if st = .deniedSecure then secret else refused))) ∧
      exec .poisonedTlp s = .next { s with host := { h with aerErr := h.aerErr ||| 0x1000 } } ∧
      (h.aspm < 2 → exec .aspmL1Entry s = .next s) ∧
      (h.perst = false → 2 ≤ h.aspm → exec .aspmL1Entry s = .next { s with host := { h with l1 := true } })) ∧
    (h.perst = false →
      exec (.configurationRequest (.read 0)) s = .next (s.answer (leBytes 4 0x96201D7C)) ∧
      exec (.configurationRequest (.read 11)) s = .next (s.answer (leBytes 4 0x00011D7C)) ∧
      (∀ n, 16 ≤ n → capOf n = none → exec (.configurationRequest (.read n)) s
        = .next (s.answer (leBytes 4 (Config.cfgSpace n (SMap.get 0 h.cfgRegs n)).toNat))) ∧
      (∀ n, ∃ s', exec (.configurationRequest (.write n v)) s = .next s' ∧ SMap.get 0 s'.host.cfgRegs n = v ∧
        (∀ m, m ≠ n → SMap.get 0 s'.host.cfgRegs m = SMap.get 0 h.cfgRegs m) ∧
        s' = { s with host := { h with cfgRegs := s'.host.cfgRegs, aspm := s'.host.aspm, aerErr := s'.host.aerErr,
                                       doeIn := s'.host.doeIn }, sec := { s.sec with doe := s'.sec.doe } } ∧
        s'.host.aspm = (if capOf n = some (0, 4) then fld v 0 2 else h.aspm) ∧
        s'.host.aerErr = (if capOf n = some (2, 1) then h.aerErr &&& ~~~v else h.aerErr) ∧
        s'.cfgWord 0 = 0x96201D7C ∧ s'.cfgWord 11 = 0x00011D7C)) ∧
    (h.l1 = true → s.pwr.state = 0 → s.pwr.entering = none → exec .pcieL1 s = .next { s with host := { h with l1 := false } }) ∧
    (h.l1 = true → s.pwr.state = 2 → s.pwr.wakes = [] → exec .pcieL1 s = .next { s with
      host := { h with l1 := false }, pwr := { s.pwr with wakes := [(2, s.now)] } })

/-- R506–R508: a read of a result slot answers its bytes and changes nothing but the count of reads made before READY. An
acknowledge that names a READY slot by its SEQ frees it and keeps SEQ, GEN and the result words; any other changes
nothing but STALE_ACK.
Next states answered for: resultSlotRead, hstResAck. -/
def Obligations.ResultSlots : Prop :=
  ∀ (s : State) (slot : Fin 256) (word : Fin 8) (len : Nat) (v : W64), Settled s → s.hubOn = true → s.host.ready = true →
    let r := s.host.regs
    let bytes := (((wordsBytes ((List.range 8).map (s.resWord slot.val))).drop (8 * word.val)).take len)
    let w := s.resWord slot.val 0
    let k := fld v 0 8
    let ack := s.resWord k 0
    (bit w 49 = true → bit w 48 = false → exec (.resultSlotRead slot word len) s = .next { s with
      rdata := bytes, host := { s.host with regs := { r with cnt := bumpFld r.cnt 32 32 1 } } }) ∧
    (¬ (bit w 49 = true ∧ bit w 48 = false) → exec (.resultSlotRead slot word len) s = .next { s with rdata := bytes }) ∧
    (bit ack 48 = true → fld ack 0 32 = fld v 32 32 → ∃ s', exec (.hstResAck v) s = .next s' ∧
      s' = { s with host := { s.host with results := s'.host.results } } ∧
      fld (s'.resWord k 0) 0 32 = fld ack 0 32 ∧ fld (s'.resWord k 0) 32 16 = fld ack 32 16 ∧
      bit (s'.resWord k 0) 48 = false ∧ bit (s'.resWord k 0) 49 = false ∧ fld (s'.resWord k 0) 56 8 = 0 ∧
      ∀ i j, (i, j) ≠ (k, 0) → j < 8 → s'.resWord i j = s.resWord i j) ∧
    (¬ (bit ack 48 = true ∧ fld ack 0 32 = fld v 32 32) → exec (.hstResAck v) s
      = .next { s with host := { s.host with regs := { r with cnt := bumpFld r.cnt 0 16 1 } } })

/-- R275, R418, R496, R499–R501, R538: NOP answers the last global commit and QUERY_TENSOR the buffer, step, class and size of a
protected tensor; either completes at once. PAUSE waits for its step, or is refused with BOUNDS when that is committed.
RESUME in PAUSED waits for the root. FUSE_REPAIR begins a fuse program, but under a low supply it is refused. TALLY_READ
copies entries that the ring still holds to where the host may write. A row acts on the oldest accepted command of its
OP (log entry 18).
Next states answered for: nop, pause, resume, tallyRead, queryTensor, fuseRepair. -/
def Obligations.SimpleHostCommands : Prop :=
  ∀ (s : State) (c : Cmd), Settled s →
    let waits := { s with host := { s.host with
      queue := s.host.queue.map fun d => if d.rslot = c.rslot then { d with started := true } else d } }
    (s.cmdOf 0x01 = some c → Completes .nop s c .ok [s.res.regs.commitGlb] s) ∧
    (s.cmdOf 0x0A = some c →
      let i := fld (wd c.words 2) 0 12
      let e := s.ent i
      (s.prots.length ≤ i → Completes .queryTensor s c .bounds [] s) ∧
      (i < s.prots.length → Completes .queryTensor s c .ok [BitVec.ofNat 64 (s.heldAddr e s.nextStep),
        BitVec.ofNat 64 s.nextStep - 1, BitVec.ofNat 64 (s.cls i), BitVec.ofNat 64 (ptSize e)] s)) ∧
    (s.cmdOf 0x05 = some c → c.started = false →
      (fld (wd c.words 2) 0 48 ≤ s.glbStep → Completes .pause s c .bounds [] s) ∧
      (s.glbStep < fld (wd c.words 2) 0 48 → exec .pause s = .next waits)) ∧
    (s.cmdOf 0x06 = some c → c.started = false → s.recovered = false → exec .resume s = .next waits) ∧
    (s.cmdOf 0x0C = some c → c.started = false → s.sec.fuse = none →
      (2 ≤ s.pwr.level → Completes .fuseRepair s c .supplyLow [] s) ∧
      (s.pwr.level < 2 → exec .fuseRepair s = .next { waits with
        sec := { s.sec with fuse := some { kind := 1, arg := 0, req := 0, jtag := false } } })) ∧
    (s.cmdOf 0x09 = some c →
      let first := (wd c.words 2).toNat
      let count := fld (wd c.words 3) 0 17
      let dst := (wd c.words 4).toNat
      let inRing := 0 < count ∧ count ≤ 65536 ∧ s.head ≤ first + 65536 ∧ first + count ≤ s.head
      (¬ inRing → Completes .tallyRead s c .bounds [] s) ∧
      (inRing → ¬ dst < 0x00F000000000 → Completes .tallyRead s c .bounds [] s) ∧
      (inRing → dst < 0x00F000000000 → s.accStatus 1 .hostWrite dst (64 * count) ≠ .ok →
        Completes .tallyRead s c (s.accStatus 1 .hostWrite dst (64 * count)) [] s) ∧
      (inRing → dst < 0x00F000000000 → s.accStatus 1 .hostWrite dst (64 * count) = .ok → s.ue = [] →
        (dst + 64 * count ≤ s.poolBase ∨ s.poolBase + 0x400000 ≤ dst) → s.poolBase + 0x400000 ≤ 0x00F000000000 →
        ∃ s', exec .tallyRead s = .next s' ∧ Completed c .ok [s.res.regs.tally] s' ∧ s'.res = s.res ∧
          (∀ i, i < count → s'.bytesAt (dst + 64 * i) 64 = s.readBytes (s.tallySlot (first + i)) 64) ∧
          (∀ a, a < dst ∨ dst + 64 * count ≤ a → rdByte s'.mem a = rdByte s.mem a)))

/-- R495–R502, R643, R649, R652–R654: CONFIGURE without an override block takes the image's cap, setpoint and AUX port and enters
CONFIGURED, and fails for a block at an unaligned address. LOAD checks the image, and fails with the first check that
does; one that passes is installed when LOAD_DONE comes, in LOADED, and names its job and first step. START refuses as
R430, R437 and R471 give, and in MODE = FRESH sets the folds at the first step and enters RUNNING. UNLOAD resets the folds, drops
the job and enters CONFIGURED.
Next states answered for: configure, load, loadDone, start, unload. -/
def Obligations.JobCommands : Prop :=
  ∀ (s : State) (c : Cmd), Settled s → Untraced s → s.ue = [] →
    (s.cmdOf 0x02 = some c →
      let a := (wd c.words 2).toNat
      (a ≠ 0 → a % 64 ≠ 0 → Completes .configure s c .align [] s) ∧
      (a = 0 → (∀ p, p < 6 → (s.port p).role = 0 ∧ (s.port p).st = .down) → s.job = none → setAux s.cfg.settings = none →
        ∃ s', exec .configure s = .next s' ∧ s'.host.st = .configured ∧ fld s'.pwr.cap 0 12 = setCap s.cfg.settings ∧
          s'.pwr.wantSet = setSetpoint s.cfg.settings ∧ s'.cfg.auxPort = none ∧ s'.mem = s.mem ∧
          fld (s'.resWord c.rslot 0) 56 8 = 0 ∧ bit (s'.resWord c.rslot 0) 48 = true)) ∧
    (∀ signed, s.cmdOf 0x03 = some c → c.started = false →
      let k := s.loadCheck (wd c.words 2).toNat (wd c.words 3).toNat signed
      (k.1 ≠ .ok → Completes (.load signed) s c k.1 [] s) ∧
      (k.1 = .ok → exec (.load signed) s = .next { s with
        host := { s.host with queue := s.host.queue.map fun d => if d.rslot = c.rslot then { d with started := true } else d },
        cfg := { s.cfg with loading := some k.2 } })) ∧
    (∀ j pages, s.cmdOf 0x03 = some c → s.cfg.loading = some (j, pages) →
      (∀ p, p < 6 → (s.port p).role = 0 ∧ (s.port p).st = .down) → s.cfg.auxPort = none →
      (∀ p, p < 6 → fld (j.ports.getD p (0, 0)).1 0 3 = 0) →
      ∃ s' j', exec .loadDone s = .next s' ∧ s'.host.st = .loaded ∧ s'.job = some j' ∧ j' = { j with digest := j'.digest } ∧
        s'.cfg.pages = some pages ∧ s'.cfg.loading = none ∧ s'.col.insts = [] ∧
        Completed c .ok [wd j.hdr 1, BitVec.ofNat 64 (fld (wd j.hdr 3) 0 48)] s') ∧
    (s.cmdOf 0x04 = some c →
      let mode := fld (wd c.words 2) 0 2
      let bad := firstFail [(!s.paired, .notReady), (s.sharedFeed && !s.hasStripe && !(resAccept s.resHdr), .feedShared),
        (mode = 3, .unsupported), (mode = 2 && !s.keptJob, .bounds)]
      (bad ≠ .ok → Completes .start s c bad [] s) ∧
      (bad = .ok → mode = 0 → s.hasPartner = false → s.job ≠ none →
        ∃ s', exec .start s = .next s' ∧ s'.host.st = .running ∧ s'.res.regs.commitGlb = 0 ∧ s'.res.regs.commitDev = 0 ∧
          s'.res.regs.snap = 0 ∧ bit s'.res.regs.kept 48 = false ∧ s'.res.stopped = false ∧
          Completed c .ok [BitVec.ofNat 64 s.firstStep] s')) ∧
    (s.cmdOf 0x07 = some c → s.cfg.staged = none → (∀ p, p < 6 → (s.port p).role = 0 ∧ (s.port p).st = .down) →
      ∃ s', exec .unload s = .next s' ∧ s'.host.st = .configured ∧ s'.job = none ∧ s'.cfg.pages = none ∧
        bit s'.res.regs.kept 48 = false ∧ s'.col.insts = [] ∧ (∀ f c t, f < 336 → (s'.thread f c t).st = .idle) ∧
        Completed c .ok [] s')

/-! ### Staged changes, resets, mailboxes and crooks (chapters 13 and 17) -/

/-- R657–R659: STAGE acts on the oldest accepted STAGE that is not under way: a block that fails its checks is refused with
the first failure and stages nothing; one that passes waits for its islands with the old configuration in force. An island that
answers UNABLE changes nothing, one that answers REFUSED ends the change with its status and its name, and one that answers
PREPARED is noted, but where the island cannot prepare (R658), which stays unprepared, and where the hub has no room for
the partner's copies, which ends the change with BOUNDS (R431); an answer of an island that the change does not touch does
nothing. The result holds the change block's TAG. Outside RUNNING the last PREPARED applies the change: a change of COL_SMALL alone
sets it, and the STAGE completes OK with RES_COMMIT_GLB.STEP.
Next states answered for: stage, stageAnswer. -/
def Obligations.StagedChanges : Prop :=
  ∀ (s : State), Settled s → s.ue = [] →
    (∀ c, (s.host.queue.find? fun d => d.op = 0x08 && !d.started) = some c →
      let a := (wd c.words 2).toNat
      let st := s.stageCheck a
      let tag := fld (s.imgWord a) 32 32
      (a % 64 ≠ 0 → Completes .stage s c .align [] s) ∧
      (st ≠ .ok → blockStatus a 64 = .ok → Completes .stage s c st [0, 0, put 0 32 tag] s) ∧
      (st ≠ .ok → blockStatus a 64 ≠ .ok → Completes .stage s c st [] s) ∧
      (st = .ok → ∃ s' g, exec .stage s = .next s' ∧ PortsSend { s with
          host := { s.host with queue := s.host.queue.map fun d => if d.rslot = c.rslot then { d with started := true } else d },
          cfg := { s.cfg with stageSt := 2, staged := some g } } s' ∧ g.tag = tag ∧
        g.answers = [] ∧ g.partner = false ∧ g.holds = 0 ∧ g.items.length = fld (s.imgWord (a + 8)) 0 11)) ∧
    (∀ (g : Staged) (island status : Nat), s.cfg.staged = some g →
      let touches := island ∈ g.islands s
      let others := { s with cfg := { s.cfg with staged := none, stageSt := 0, stageLast := (Status.ofCode status).code } }
      let noted := { g with answers := if (island, 1) ∈ g.answers then g.answers else g.answers ++ [(island, 1)] }
      let full := island = 0x3FF ∧ s.holderRoom g.items = false
      (s.host.st ≠ .recovering → touches → island ≠ 4 →
        exec (.stageAnswer island 0 status) s = .next s ∧
        Completes (.stageAnswer island 2 status) s g.cmd (Status.ofCode status) [0, BitVec.ofNat 64 island, put 0 32 g.tag]
          others ∧
        (full → Completes (.stageAnswer island 1 status) s g.cmd .bounds [0, BitVec.ofNat 64 island, put 0 32 g.tag]
          { others with cfg := { others.cfg with stageLast := Status.bounds.code } }) ∧
        (¬ full → s.islandUnable island = true → exec (.stageAnswer island 1 status) s = .next s) ∧
        (¬ full → s.islandUnable island = false → s.host.st = .running ∨ s.stageReady noted = false →
          ∃ s', exec (.stageAnswer island 1 status) s = .next s' ∧
            PortsSend { s with cfg := { s.cfg with staged := some noted, peerWord := s'.cfg.peerWord } } s' ∧
            (s.cfg.peerWord = none → s'.cfg.peerWord = none))) ∧
      (¬ touches → island ≠ 4 → ∀ n, exec (.stageAnswer island n status) s = .next s) ∧
      (∀ x : W64 × W64, g.items = [x] → fld x.1 0 8 = 0x03 → s.host.st ≠ .recovering → s.host.st ≠ .running →
        bit (s.trc 0).ctl 0 = false → bit (s.trc 1).ctl 0 = false →
        Completes (.stageAnswer 0x3FF 1 status) s g.cmd .ok [put 0 48 s.glbStep, 0, put 0 32 g.tag] { s with
          cfg := { s.cfg with staged := none, stageSt := 0, stageLast := 0 }, col := { s.col with small := fld x.2 0 32 } }))

/-- R252, R253, R456, R522, R478, R479, R482, R498, R642, R643 and the reset domains of the scope chapter: WARM_RESET and PERST# reset what the WARM domain
holds and keep the rest: the host state is OFFLINE and not yet readable, no command, result, job, staged change or
mailbox word is left, every thread is IDLE, the debug level is 0, fold stores read 0; stack memory, RES_KEPT, FLD_MAP,
the failed folds and spares (one that a rebuild had taken is a spare again), FLD_MEM_ERR, DRV_LINK_CNT, the security level, the rollback floor and the timebase stay. PERST# released changes nothing else. HUBM_RESET without the key 0x4855 changes
nothing; with it, in a state other than RUNNING and RECOVERING, every waiting command completes with BUSY, a staged change
ends, and the crooks and mailboxes of the shepherd are freed and emptied; every other crook, mailbox and the host state stay.
RUNNING becomes RECOVERING.
Next states answered for: warmReset, perstAssert, perstRelease, hubmReset. -/
def Obligations.Resets : Prop :=
  ∀ (s : State) (v : W64), Settled s →
    (s.cfg.boot = .up ∨ s.cfg.boot = .warm ∨ s.cfg.boot = .noImage →
      let warm := fun (i : Instr) (perst : Bool) => ∃ s', exec i s = .next s' ∧
        s'.host.st = .offline ∧ s'.host.ready = false ∧ s'.host.queue = [] ∧ s'.host.perst = perst ∧
        (∀ i j, s'.resWord i j = 0) ∧ s'.job = none ∧ s'.cfg.staged = none ∧ s'.cfg.loading = none ∧
        s'.col.insts = [] ∧ (∀ n, (s'.mbox n).full = false) ∧ (∀ k, (s'.crook k).owner = 0) ∧
        (∀ f c t, (s'.thread f c t).st = .idle) ∧ (∀ f n, (s'.slot f n).count = 0) ∧ s'.sec.debug = 0 ∧ s'.sec.fuse = none ∧
        s'.pwr.cap = 3800 ∧ s'.pwr.vinMin = 0xFFFF ∧ s'.pwr.state = 0 ∧ Untraced s' ∧
        (∀ a, inFoldStore a = true → rdByte s'.mem a = 0) ∧
        (∀ a, inFoldStore a = false → rdByte s'.mem a = rdByte s.mem a) ∧
        s'.cfg.boot = (if s.cfg.boot = .noImage then .noImage else .warm) ∧ s'.cfg.fldMap = s.cfg.fldMap ∧
        s'.res.regs.kept = s.res.regs.kept ∧ s'.res.regs.keptJob = s.res.regs.keptJob ∧ s'.res.regs.commitGlb = 0 ∧
        (∀ f, (s'.fold f).regs.memErr = (s.fold f).regs.memErr) ∧
        (∀ p, (s'.port p).regs.linkCnt = (s.port p).regs.linkCnt) ∧ s'.res.failedF = s.res.failedF ∧ s'.res.spares = s.res.allSpares ∧ s'.now = s.now ∧
        s'.sec.level = s.sec.level ∧ s'.sec.svnFloor = s.sec.svnFloor ∧ s'.sec.rootRev = s.sec.rootRev
      (s.cmdOf 0x0D ≠ none → warm .warmReset s.host.perst) ∧ warm .perstAssert true) ∧
    (s.cfg.boot = .noPower ∨ s.cfg.boot = .aon ∨ s.cfg.boot = .rom ∨ s.cfg.boot = .released →
      exec .perstAssert s = .next { s with host := { s.host with perst := true, l1 := false, ready := false,
                                                                      cfgRegs := [], aspm := 0, doeIn := [] } }) ∧
    exec .perstRelease s = .next { s with host := { s.host with perst := false } } ∧
    (s.hubOn = true → s.host.ready = true →
      (fld v 48 16 ≠ 0x4855 ∨ v.getLsbD 0 = false → exec (.hubmReset v) s = .next s) ∧
      (fld v 48 16 = 0x4855 → v.getLsbD 0 = true → s.host.st ≠ .running → s.host.st ≠ .recovering →
        ∃ s', exec (.hubmReset v) s = .next s' ∧
          s'.host.queue = [] ∧ s'.host.st = s.host.st ∧ s'.cfg.staged = none ∧
          (∀ c ∈ s.host.queue, bit (s'.resWord c.rslot 0) 48 = true ∧ fld (s'.resWord c.rslot 0) 56 8 = 0x09) ∧
          (∀ k i, (∀ c ∈ s.host.queue, c.rslot ≠ k) → i < 8 → s'.resWord k i = s.resWord k i) ∧
          (∀ n, (s'.mbox n).full = ((s.mbox n).full && !(s.mboxRcv n = 2)) ∧ (s'.mbox n).word = (s.mbox n).word) ∧
          (∀ k, (s'.crook k).owner = if (s.crook k).owner = 2 then 0 else (s.crook k).owner) ∧
          s' = { s with host := s'.host, cfg := s'.cfg, sec := s'.sec, mbx := s'.mbx } ∧ s'.host.regs = s.host.regs) ∧
      (fld v 48 16 = 0x4855 → v.getLsbD 0 = true → s.host.st = .running → s.job ≠ none → s.ue = [] → Untraced s → Unreset s →
        ∃ s', exec (.hubmReset v) s = .next s' ∧ s'.host.st = .recovering ∧ s'.host.queue = [] ∧ s'.res.stopped = true))

/-- R509, R511–R517, R531: a write to a mailbox that its writer may not use, or that has no receiver, is counted in REFUSED and stores nothing;
one to a full mailbox is counted in LOST; any other stores the word and its sender and tells the receiver: the host by
vector n (66: 6, 67: 7), a running fold by 1 added to its event slot, a grazed fold when its clock runs, and a fold in
Rest or Deep by a wake event of source WHISTLE. The receiver's read of MBX_TAKE takes the word and clears FULL, and the next reply of the security core takes the freed
channel 67; any other's reads 0. A read of MBX_STS clears its two counts.
R518–R520, R532: a read of a free crook makes the reader its owner and returns 0; a read of a held one returns its owner
and changes nothing. A write of 0 by the owner, the shepherd or the security core frees it; any other write is counted in
IGNORED. Crooks 0 to 7 are secure: others read 0 and write nothing.
Next states answered for: mbxDataWrite, mbxTake, mbxStsRead, crookRead, crookWrite. -/
def Obligations.MailboxesAndCrooks : Prop :=
  (∀ (s : State) (who : Nat) (n : Fin 72) (v : W64), Settled s → s.hubOn = true → (who = 1 → s.host.ready = true) →
     let b := s.mbox n.val
     let rcv := s.mboxRcv n.val
     let secure := n.val < 16 ∨ 68 ≤ n.val
     let trusted := who = 2 ∨ who = 3 ∨ who = 4
     let box := fun (x : MBox) => { s with mbx := { s.mbx with boxes := SMap.set {} s.mbx.boxes n.val x } }
     let may := (64 ≤ n.val → ([1, 1, 2, 3, 2, 3, 4, 4] : List Nat)[n.val - 64]? = some who) ∧ (n.val < 16 → trusted)
     let used := 64 ≤ n.val ∨ fld (s.mboxCfg n.val) 0 13 ≠ 0
     let stored := box { b with word := v, full := true, sender := who }
     let puts := exec (.mbxDataWrite who n v) s
     let fold := rcv - 16
     let slot := fld (s.mboxCfg n.val) 16 6
     let vector := if n.val = 66 then 6 else if n.val = 67 then 7 else n.val
     let takes := rcv ≠ 0 ∧ (rcv = who ∨ (16 ≤ rcv ∧ rcv ≤ 351 ∧ who = 1024 + 8 * fold))
     let taken := (box { b with full := false, word := 0 }).answerWord b.word
     (agentNo who = true →
     (¬ (may ∧ used) → puts = .next (box { b with refused := satAdd 16 b.refused 1 })) ∧
     (may → used → b.full = true → puts = .next (box { b with lost := satAdd 16 b.lost 1 })) ∧
     (may → used → b.full = false →
       (rcv = 2 ∨ rcv = 3 → puts = .next stored) ∧
       (rcv = 1 → 16 ≤ n.val → (n.val < 64 ∨ n.val = 66 ∨ n.val = 67) →
         (bit (s.host.msix (2 * vector + 1)) 32 = false →
           puts = .next { stored with host := { s.host with msi := s.host.msi ++ [vector] } }) ∧
         (bit (s.host.msix (2 * vector + 1)) 32 = true →
           puts = .next { stored with host := { s.host with pba := s.host.pba ||| put vector 1 1 } })) ∧
       (16 ≤ rcv → rcv ≤ 351 →
         (s.pwr.state ≠ 2 → s.pwr.state ≠ 3 → s.pwr.entering = none → (s.fold fold).island.graze = false → (s.slot fold slot).waiters = [] →
           (s.slot fold slot).count < 65535 →
           puts = .next (stored.setSlot fold slot { s.slot fold slot with count := (s.slot fold slot).count + 1 })) ∧
         (s.pwr.state ≠ 2 → s.pwr.state ≠ 3 → s.pwr.entering = none → (s.fold fold).island.graze = true →
           puts = .next (stored.setFold fold { s.fold fold with
             island := { (s.fold fold).island with held := (s.fold fold).island.held ++ [(slot, 1)] } })) ∧
         (s.pwr.state = 2 ∨ s.pwr.state = 3 → ∃ s', puts = .next s' ∧ s' = { stored with mbx := s'.mbx, pwr := s'.pwr } ∧
           (∃ t, (3, t) ∈ s'.pwr.wakes) ∧ s'.mbox n.val = stored.mbox n.val ∧ s'.mbx.whist = s.mbx.whist ++ [(n.val, rcv)])))) ∧
     ((secure → trusted) → takes → s.sec.replies = [] →
       (¬ (who = 2 ∧ n.val = 70) → exec (.mbxTake who n) s = .next taken) ∧
       (who = 2 → n.val = 70 → s.cfg.staged = none →
         exec (.mbxTake who n) s = .next { taken with cfg := { s.cfg with peerWord := some b.word } })) ∧
     (∀ w rest, takes → n.val = 67 → s.sec.replies = w :: rest → ∃ s', exec (.mbxTake who n) s = .next s' ∧
       s'.rdata = leBytes 8 b.word.toNat ∧ (s'.mbox 67).word = w ∧ (s'.mbox 67).full = true ∧ (s'.mbox 67).sender = 3 ∧
       s'.sec.replies = rest) ∧
     (¬ ((secure → trusted) ∧ takes) → exec (.mbxTake who n) s = .next (s.answerWord 0)) ∧
     ((secure → trusted) → exec (.mbxStsRead who n) s = .next ((box { b with lost := 0, refused := 0 }).answerWord
       (put 0 1 (b2n b.full) ||| put 4 12 b.sender ||| put 16 16 b.lost ||| put 32 16 b.refused))) ∧
     (¬ (secure → trusted) → exec (.mbxStsRead who n) s = .next (s.answerWord 0))) ∧
  (∀ (s : State) (who : Nat) (k : Fin 32) (v : W64), Settled s → s.hubOn = true → (who = 1 → s.host.ready = true) →
     let c := s.crook k.val
     let mine := fun (x : Crook) => { s with mbx := { s.mbx with crooks := SMap.set {} s.mbx.crooks k.val x } }
     (8 ≤ k.val ∨ who = 2 ∨ who = 3 ∨ who = 4 →
       (c.owner = 0 → agentNo who = true → exec (.crookRead who k) s = .next ((mine { c with owner := who }).answerWord 0)) ∧
       (c.owner ≠ 0 → agentNo who = true → exec (.crookRead who k) s = .next (s.answerWord (put 0 12 c.owner ||| put 48 16 c.ignored))) ∧
       (fld v 0 12 = 0 → (who = c.owner ∨ who = 2 ∨ who = 3) → exec (.crookWrite who k v) s = .next (mine { c with owner := 0 })) ∧
       (¬ (fld v 0 12 = 0 ∧ (who = c.owner ∨ who = 2 ∨ who = 3)) →
         exec (.crookWrite who k v) s = .next (mine { c with ignored := satAdd 16 c.ignored 1 }))) ∧
     (k.val < 8 → who ≠ 2 → who ≠ 3 → who ≠ 4 →
       exec (.crookRead who k) s = .next (s.answerWord 0) ∧ exec (.crookWrite who k v) s = .next s))

/-! ### Supply, start-up, power and temperature (chapters 14, 17 and 18) -/

/-- R536, R538–R540, R570, R672: a sample beyond the absolute maximum stops the machine. Any other enters the mean of the last
four; one whose mean is above 46.0 V, a brown-out and a power-stage fault are COLD resets with their cause. Otherwise each threshold newly
crossed has its action: WARN raises vector 4, is counted and ends boost, INHIBIT cuts short the flash and fuse writes
in progress, STOP arms the orderly stop of a running job; boost ends where R561 no longer allows it; nothing else changes.
The sample comes no sooner than 1,000 ticks after the one before. A level clears with all above it; an orderly stop that is
overdue stops the job, which is then RECOVERING.
Next states answered for: supplySample, supplyLevelClear, orderlyStopDeadline, brownOut, powerStage. -/
def Obligations.SupplyLevels : Prop :=
  ∀ (s : State) (mv : Int) (watts : Nat) (m : Fin 4), Settled s →
    let l := (mv :: s.pwr.samples).take 4
    let f := (l.foldl (· + ·) 0 / (l.length : Int)).toNat
    let lv := if f < 32500 then 3 else if f < 34000 then 2 else if f < 35000 then 1 else 0
    let old := s.pwr.level
    let inRange := -500 ≤ mv ∧ mv ≤ 60000
    (¬ inRange → exec (.supplySample mv watts) s = .fault .beyondAbsoluteMaximum) ∧
    (inRange → s.cfg.boot ≠ .noPower → 46000 < f → ∃ s', exec (.supplySample mv watts) s = .next s' ∧ ColdReset 2 s s') ∧
    (s.cfg.boot ≠ .noPower → (∃ s', exec .brownOut s = .next s' ∧ ColdReset 1 s s') ∧
      (∃ s', exec (.powerStage m) s = .next s' ∧ ColdReset 4 s s')) ∧
    (inRange → f ≤ 46000 → s.cfg.boot ≠ .noPower → s.hubOn = true → s.pwr.state ≠ 4 →
      ∃ s', exec (.supplySample mv watts) s = .next s' ∧
        s'.now = max s.now (s.pwr.sampleAt + 1000) ∧ s'.pwr.sampleAt = s'.now ∧ s'.pwr.samples = l ∧ s'.pwr.filtered = f ∧ s'.pwr.pIn = watts ∧ s'.pwr.vinMin = min s.pwr.vinMin f ∧
        s'.pwr.level = max old lv ∧
        (old < 1 → 1 ≤ lv → (∀ g, (s'.fold g).island.boostMhz = 1500) ∧
          (bit (s.host.msix 9) 32 = false → s'.host.msi = s.host.msi ++ [4]) ∧
          fld s'.pwr.cnt 0 16 = satAdd 16 (fld s.pwr.cnt 0 16) 1) ∧
        (¬ (old < 1 ∧ 1 ≤ lv) → s'.host = s.host ∧ s'.pwr.cnt = s.pwr.cnt) ∧
        (s'.mayBoost = true → s'.folds = s.folds) ∧
        (s'.mayBoost = false → ∀ g, (s'.fold g).island.boostMhz = 1500) ∧
        (old < 2 → 2 ≤ lv → (∀ j, s'.cfg.flashJob = some j → j.cut = true) ∧ (∀ j, s'.sec.fuse = some j → j.cut = true)) ∧
        (¬ (old < 2 ∧ 2 ≤ lv) → s'.cfg = s.cfg ∧ s'.sec = s.sec) ∧
        s'.pwr.stopAt = (if old < 3 ∧ lv = 3 ∧ s.host.st = .running then some s'.now else s.pwr.stopAt) ∧
        s' = { s with now := s'.now, folds := s'.folds, host := s'.host, cfg := s'.cfg, sec := s'.sec, pwr := s'.pwr }) ∧
    (∀ t, s.pwr.above = some t → old ≠ 0 → s.hubOn = true → s.host.st ≠ .recovering → s.host.st ≠ .paused →
      exec .supplyLevelClear s = .next { s with now := max s.now (t + 1000000), pwr := { s.pwr with level := 0 } }) ∧
    (∀ t, s.pwr.stopAt = some t → s.host.st = .running → s.job ≠ none → s.ue = [] → Untraced s → Unreset s →
      ∃ s', exec .orderlyStopDeadline s = .next s' ∧ s'.host.st = .recovering ∧ s'.res.stopped = true ∧
        s'.pwr.stopAt = none ∧ s'.now = max s.now (t + 5000000) ∧
        fld s'.pwr.cnt 16 16 = satAdd 16 (fld s.pwr.cnt 16 16) 1)

/-- R253, R530, R540, R548, R580, R582, R587, R597, R606, R641, R642, R645, R646, R661, R676, R678: power-up starts the always-on island; the cold start
releases the hub at timebase 0 with memory reading zero, once the supply, SYSCLK and after a trip the temperatures allow;
the image of the preferred slot runs if it passes, else the other's, else none; the start-up's end makes OFFLINE readable and raises
vector 2. SEC_BEAT counts beats of 65,536 ticks. GO in CFG_FLASH starts a write that may start and records why another may
not; the write's end records its status, and one that the supply cut short is counted.
Next states answered for: secBeat, coldStart, imageVerified, startupComplete, flashWrite, flashWriteDone, powerUp. -/
def Obligations.StartUp : Prop :=
  ∀ (s : State) (sa : Fin 4) (sysclk flashOk compareOk : Bool) (a b : FlashSlot) (rev who : Nat) (v : W64), Settled s →
    let p := s.pwr
    let okA := imgHdrCheck a = .ok
    let okB := imgHdrCheck b = .ok
    let preferred := okB ∧ (¬ okA ∨ fld (wd a.hdr 1) 0 32 < fld (wd b.hdr 1) 0 32)
    let runs := fun (x : FlashSlot) (isB fallback : Bool) (err : Nat) => exec (.imageVerified a b flashOk) s = .next { s with
      free := s.free + 1
      sec := { s.sec with
        image := isB, svns := x.entries.map (fun e => fld (wd e 1) 8 6), permDbg := x.permDebug, meas := s.free,
        bootErr := if fallback then err else s.sec.bootErr }
      cfg := { s.cfg with
        boot := .released, settings := x.settings,
        bootReg := put 0 1 (b2n isB) ||| put 1 1 (b2n fallback) ||| put (if isB then 8 else 16) 8 err
          ||| put 24 32 (fld (wd x.hdr 1) 0 32) } }
    let ports := (∀ q, q < 6 → (s.port q).role = 0 ∧ (s.port q).st = .down) ∧ s.job = none ∧ setAux s.cfg.settings = none
    let started := fun (t : State) => t.host.ready = true ∧ t.cfg.boot = .up ∧ t.pwr.wantSet = setSetpoint s.cfg.settings ∧
      fld t.pwr.cap 0 12 = setCap s.cfg.settings % 4096 ∧ t.mem = s.mem ∧
      (bit (s.host.msix 5) 32 = false → t.host.msi = s.host.msi ++ [2])
    (s.hubOn = false → (s.cfg.boot = .noPower ∨ s.cfg.boot = .aon) → exec (.powerUp sa sysclk) s = .next { s with
      pwr := { p with sa := sa.val, i3c := true, sysclk := sysclk, okFrom := some s.now,
                      cause := if s.cfg.boot = .noPower then 0 else p.cause },
      cfg := { s.cfg with boot := .aon } }) ∧
    (s.cfg.boot = .aon → p.okFrom ≠ none → 36000 ≤ p.filtered → p.sysclk = true → p.state ≠ 4 →
      (p.trip = false ∨ (p.tDie < 95 ∧ p.tStack < 95)) → exec .coldStart s = .next { s with
        now := 0, hubOn := true, mem := [], ue := [],
        pwr := { p with
          trip := false, devIdAon := true, okFrom := some 0, above := p.above.map (fun _ => 0), sampleAt := 0,
          telemAt := 0, hotAt := [], timerAt := 0 },
        cfg := { s.cfg with boot := .rom, bootAt := 0 } }) ∧
    (p.filtered < 36000 ∨ p.sysclk = false ∨ (p.trip = true ∧ 95 ≤ p.tDie) → exec .coldStart s = .next s) ∧
    (s.cfg.boot = .rom → flashOk = true →
      (¬ preferred → s.imgCheck a = .ok → runs a false false 0) ∧
      (preferred → s.imgCheck b = .ok → runs b true false 0) ∧
      (¬ preferred → s.imgCheck a ≠ .ok → s.imgCheck b = .ok → runs b true true (s.imgCheck a).code) ∧
      (preferred → s.imgCheck b ≠ .ok → s.imgCheck a = .ok → runs a false true (s.imgCheck b).code)) ∧
    (s.cfg.boot = .rom → (flashOk = false ∨ (s.imgCheck a ≠ .ok ∧ s.imgCheck b ≠ .ok)) →
      ∃ s', exec (.imageVerified a b flashOk) s = .next s' ∧ s'.cfg.boot = .noImage ∧ s'.cfg.settings = s.cfg.settings ∧
        s'.cfg.bootReg.getLsbD 2 = true ∧ s' = { s with sec := s'.sec, cfg := s'.cfg }) ∧
    (s.cfg.boot = .released → ports → ∃ s', exec (.startupComplete rev) s = .next s' ∧ started s' ∧
      s'.pwr.noAck = decide (rev ≠ 0x44) ∧ s'.sec.idReady = (decide (s.sec.level ≠ 2) && !s.sec.opened)) ∧
    (s.cfg.boot = .warm → ports → ∃ s', exec (.startupComplete rev) s = .next s' ∧ started s' ∧
      s'.now = max s.now (s.cfg.bootAt + 30000000) ∧ s'.sec.idReady = s.sec.idReady) ∧
    (s.cfg.boot = .noImage → s.host.ready = false → ∃ s', exec (.startupComplete rev) s = .next s' ∧
      s'.host.ready = true ∧ s'.cfg.boot = .noImage ∧
      (bit (s.host.msix 5) 32 = false → s'.host.msi = s.host.msi ++ [2]) ∧
      s' = { s with host := s'.host, sec := s'.sec }) ∧
    (s.hubOn = true → exec .secBeat s = .next { s with
      now := max s.now (s.cfg.bootAt + (s.host.regs.secBeat.toNat + 1) * 65536),
      host := { s.host with regs := { s.host.regs with secBeat := s.host.regs.secBeat + 1 } } }) ∧
    (s.hubOn = true → (who = 1 → s.host.ready = true) → v.getLsbD 1 = true → s.cfg.flashJob = none →
      let slot := fld v 0 1
      let src := fld v 21 19
      let len := fld v 40 10
      let rom : Bool := s.cfg.boot = .noImage
      let st := if !rom && s.host.st ≠ .offline then 0x07
        else if (!rom && slot = b2n s.sec.image) || len = 0 || 512 < len || 0x00F000000000 < src * 0x200000 + len * 65536 then 0x03
        else if 2 ≤ p.level then 0x11 else 0
      let word := put 0 1 slot ||| put 21 19 src ||| put 40 10 len
      (st ≠ 0 → ∃ s', exec (.flashWrite who v) s = .next s' ∧ fld s'.cfg.flash 56 8 = st ∧ fld s'.cfg.flash 0 56 = word.toNat ∧
        s' = { s with cfg := { s.cfg with flash := s'.cfg.flash } }) ∧
      (st = 0 → exec (.flashWrite who v) s = .next { s with cfg := { s.cfg with
        flash := word ||| put 56 8 (fld s.cfg.flash 56 8), flashJob := some { slot := slot, src := src, len := len } } })) ∧
    (∀ j, s.cfg.flashJob = some j → s.ue = [] → exec (.flashWriteDone compareOk) s = .next { s with
      cfg := { s.cfg with
        flashJob := none,
        flash := setFld s.cfg.flash 56 8 (if j.cut then 0x11 else if compareOk then 0 else 0x13) }
      pwr := if j.cut then { p with cnt := bumpFld p.cnt 48 16 1 } else p })

/-- R542–R546, R548–R550, R687: MFR_STEP with a value the device has to announce sends its block under the next SEQ and waits, one of an
increase or decrease by its size in watts with the ramp of 10 W per microsecond; four failed tries leave the regulator
without acknowledgement. The acknowledgement under its SEQ with READY grants the level or the setpoint; REFUSED, or no
acknowledgement in time, is counted, raises vector 4, and lets a decrease happen and any other be announced again.
Without acknowledgements the granted draw moves by 500 W at most. A poll comes no sooner than 50,000 ticks after the one
before, and telemetry 10,000,000. Telemetry and SMBALERT are read and stored; each
failed transaction is counted in PEC_ERR.
Next states answered for: mfrStep, mfrStepAck, announceTimeout, reannounce, telemetry, smbalert, pmbusClockTimeout,
noAckStep. -/
def Obligations.FeedRegulator : Prop :=
  ∀ (s : State) (kind : Fin 3) (value n watts vin iout pout status : Nat) (b0 b1 : Byte), Settled s → s.hubOn = true →
    let p := s.pwr
    let pec := bumpFld p.reg 48 8
    let pw := fun (x : Pwr) => { s with pwr := x }
    let want := if p.state = 2 ∨ p.state = 3 then 38000 else p.wantSet
    let mayStep := p.ann = none ∧ p.noAck = false ∧ (kind.val = 2 → value = want ∧ value ≠ p.setpoint) ∧
      (kind.val ≠ 2 → 0 < value ∧ value < 65536) ∧ (kind.val = 1 → value ≤ p.granted)
    let seq := (p.annSeq + 1) % 256
    let goal := if kind.val = 2 then value else if kind.val = 0 then p.granted + value else p.granted - value
    let ramp := if kind.val = 2 then 0 else (value + 9) / 10
    let block := leBytes 1 seq ++ leBytes 1 kind.val ++ leBytes 2 value ++ leBytes 2 ramp
    let timeout := fun (x : Announce) (t : State) (i : Instr) => ∃ s', exec i s = .next s' ∧ s'.pwr.ann = none ∧
      fld s'.pwr.reg 16 16 = satAdd 16 (fld p.reg 16 16) 1 ∧
      (bit (s.host.msix 9) 32 = false → s'.host.msi = s.host.msi ++ [4]) ∧
      (x.kind = 1 → s'.pwr.granted = x.goal ∧ s'.pwr.acked = x.goal ∧ s'.pwr.retryAt = p.retryAt) ∧
      (x.kind ≠ 1 → s'.pwr.granted = p.granted ∧ s'.pwr.setpoint = p.setpoint ∧
        s'.pwr.retryAt = some (x.kind, x.goal, t.now + 10000000)) ∧
      s' = { t with pwr := s'.pwr, host := s'.host }
    (mayStep → n < 4 → exec (.mfrStep kind value n) s = .next (pw { p with
      reg := pec n, annSeq := seq, lastStep := block, retryAt := none, pmbTx := p.pmbTx ++ [(0xD0, block)],
      ann := some { seq := seq, kind := kind.val, value := value, goal := goal, at_ := s.now, polled := s.now },
      granted := if kind.val = 1 ∧ 1 ≤ p.level then goal else p.granted })) ∧
    (mayStep → 4 ≤ n → exec (.mfrStep kind value n) s = .next (pw { p with reg := pec 4, noAck := true, stepAt := s.now })) ∧
    (¬ mayStep → exec (.mfrStep kind value n) s = .next s) ∧
    (∀ x : Announce, p.ann = some x → n < 4 →
      let at_ := max s.now (x.polled + 50000)
      let late := { s with now := at_ }
      let read := { p with reg := pec n, pmbTx := p.pmbTx ++ [(0xD1, [b0, b1])], ann := some { x with polled := at_ } }
      (b0.toNat ≠ x.seq ∨ (b1.getLsbD 0 = false ∧ b1.getLsbD 1 = false) →
        exec (.mfrStepAck b0 b1 n) s = .next { late with pwr := read }) ∧
      (b0.toNat = x.seq → b1.getLsbD 1 = false → b1.getLsbD 0 = true → exec (.mfrStepAck b0 b1 n) s = .next { late with pwr := { read with
        ann := none, reg := setFld (pec n) 8 8 x.seq,
        granted := if x.kind = 2 then p.granted else x.goal, acked := if x.kind = 2 then p.acked else x.goal,
        setpoint := if x.kind = 2 then x.goal else p.setpoint } }) ∧
      (b0.toNat = x.seq → b1.getLsbD 1 = true → timeout x late (.mfrStepAck b0 b1 n))) ∧
    (∀ x : Announce, p.ann = some x → timeout x { s with now := max s.now (x.at_ + 2000000) } .announceTimeout) ∧
    (∀ k g t, p.retryAt = some (k, g, t) → p.ann = none → ∃ s' x, exec .reannounce s = .next s' ∧
      s'.now = max s.now t ∧ s'.pwr.retryAt = none ∧ s'.pwr.ann = some x ∧ x.seq = seq ∧ x.kind = k ∧ x.goal = g ∧
      x.at_ = s'.now ∧ s' = { s with now := s'.now, pwr := s'.pwr }) ∧
    (p.noAck = true → watts ≤ p.granted + 500 → p.granted ≤ watts + 500 →
      let at_ := max s.now (p.stepAt + 2000000)
      exec (.noAckStep watts) s = .next { s with now := at_, pwr := { p with granted := watts, acked := watts, stepAt := at_ } }) ∧
    (¬ (p.noAck = true ∧ watts ≤ p.granted + 500 ∧ p.granted ≤ watts + 500) → exec (.noAckStep watts) s = .next s) ∧
    exec (.telemetry vin iout pout n) s = .next { s with now := max s.now (p.telemAt + 10000000), pwr := { p with
      reg := pec n, telem := [vin, iout, pout], telemAt := max s.now (p.telemAt + 10000000),
      pmbTx := p.pmbTx ++ [(0x88, leBytes 2 vin)] ++ [(0x8C, leBytes 2 iout)] ++ [(0x96, leBytes 2 pout)] } } ∧
    exec .pmbusClockTimeout s = .next (pw { p with reg := pec 1 }) ∧
    (n < 4 → bit (s.host.msix 9) 32 = false → exec (.smbalert status n) s = .next { s with
      pwr := { p with reg := setFld (pec n) 32 16 status, pmbTx := p.pmbTx ++ [(0x79, leBytes 2 status)] ++ [(0x03, [])] },
      host := { s.host with msi := s.host.msi ++ [4] } })

/-- R230, R252, R552–R557, R572, R603: an idle fold enters Graze and its clock stops; on its exit what woke it is applied. SET_POWER
fails with the first check of R553 that does, completes at once in the state asked for, and otherwise begins; an entry runs to its end, with the caches empty; TIMER and a
host's SET_POWER to Run are wake sources while the domain is down. The exit waits for 35.0 V, names the first source in
PWR_WAKE_LAST, and leaves the domain in Run with the SET_POWER complete; an exit from Deep leaves every thread IDLE.
Next states answered for: setPower, grazeEnter, grazeExit, powerEntryDone, timer, powerExit, powerExitDone. -/
def Obligations.PowerStates : Prop :=
  ∀ (s : State) (f : FoldNo), Settled s → Untraced s → s.hubOn = true →
    let p := s.pwr
    let v := s.fold f.val
    let down := p.state = 2 ∨ p.state = 3
    let only := fun (t : State) => t = { s with folds := t.folds } ∧ ∀ g, g ≠ f.val → t.fold g = s.fold g
    let still := ∀ q, q < 6 → (s.port q).rxq = [] ∧ (s.port q).st ≠ .reset
    ((s.cfg.boot = .up ∨ s.cfg.boot = .noImage) → v.clocked = true → v.idle = true →
      ∃ s', exec (.grazeEnter f) s = .next s' ∧ only s' ∧ (s'.fold f.val).island.graze = true ∧
        (s'.fold f.val).clocked = false ∧ (s'.fold f.val).cores = v.cores ∧ (s'.fold f.val).evt = v.evt) ∧
    (v.idle = false → exec (.grazeEnter f) s = .next s) ∧
    (still → v.island.graze = true → v.island.held = [] → ∃ s', exec (.grazeExit f) s = .next s' ∧ only s' ∧
      (s'.fold f.val).island = { v.island with graze := false, cycFrom := s.now } ∧ (s'.fold f.val).evt = v.evt ∧
      ∀ c, s'.core f.val c = if v.island.stopped ∨ v.island.failed then s.core f.val c else Core.sched (s.core f.val c)) ∧
    (∀ n k, still → v.island.graze = true → v.island.held = [(n, k)] → (s.slot f.val n).waiters = [] →
      ∃ s', exec (.grazeExit f) s = .next s' ∧ only s' ∧ (s'.fold f.val).island.graze = false ∧
        (s'.slot f.val n).count = min ((s.slot f.val n).count + k) 65535) ∧
    (v.island.graze = false → exec (.grazeExit f) s = .next s) ∧
    (∀ c, s.cmdOf 0x0B = some c → c.started = false →
      let t := fld (wd c.words 2) 0 3
      let busy := s.cfg.flashJob.isSome ∨ s.sec.fuse.isSome
      let st := if t = 1 then Status.unsupported else if 5 ≤ t then .bounds
        else if t = 4 ∧ s.host.st ≠ .offline then .notInState
        else if (t = 3 ∨ t = 4) ∧ busy then .busy
        else if 2 ≤ t ∧ (s.sec.fuse.isSome ∨ s.sec.replies ≠ [] ∨ (t = 4 ∧ s.sec.tap = 0x10)) then .deniedSecure else .ok
      let begun := { s with
        host := { s.host with queue := s.host.queue.map fun (d : Cmd) => if d.rslot = c.rslot then { d with started := true } else d } }
      (st ≠ .ok → Completes .setPower s c st [] s) ∧
      (st = .ok → t = p.state → p.exiting = none → Completes .setPower s c .ok [BitVec.ofNat 64 t, 0] s) ∧
      (st = .ok → t ≠ 0 → t ≠ p.state → exec .setPower s = .next { begun with
        pwr := { p with reqAt := s.now, entering := some (t, s.now) } }) ∧
      (st = .ok → t = 0 → down → p.wakes = [] → exec .setPower s = .next { begun with
        pwr := { p with reqAt := s.now, wakes := [(6, s.now)] } })) ∧
    (∀ c t at_, still → p.entering = some (t, at_) → p.exiting = none → t ≠ 4 → s.cmdOf 0x0B = some c → c.started = true →
      (s.trc 0).buf = [] → (s.trc 1).buf = [] →
      ∃ s', exec .powerEntryDone s = .next s' ∧ s'.pwr.state = t ∧ s'.pwr.entering = none ∧ s'.pwr.wakes = p.wakes ∧
        (∀ g, g < 336 → (s'.fold g).clocked = false ∧ (s'.fold g).fc = [] ∧
          ∀ k, (s'.core g k).l1d = [] ∧ (s'.core g k).l1i = []) ∧ s'.mem = s.mem ∧
        Completed c .ok [BitVec.ofNat 64 t, BitVec.ofNat 64 (s.now - p.reqAt)] s') ∧
    (∀ at_, p.entering = some (4, at_) → p.exiting = none → ∃ s', exec .powerEntryDone s = .next s' ∧ s'.pwr.state = 4 ∧ s'.hubOn = false ∧
      s'.host.queue = [] ∧ (∀ i j, s'.resWord i j = 0)) ∧
    (p.timer.getLsbD 48 = true → down → p.wakes = [] →
      let at_ := max s.now (p.timerAt + (fld p.timer 0 48 + 2 ^ 48 - p.timerAt % 2 ^ 48) % 2 ^ 48)
      exec .timer s = .next { s with now := at_, pwr := { p with timer := setFld p.timer 48 1 0, wakes := [(5, at_)] } }) ∧
    (p.timer.getLsbD 48 = false → exec .timer s = .next s) ∧
    (down → p.entering = none → p.exiting = none →
      (p.wakes ≠ [] → p.filtered < 35000 → exec .powerExit s = .next { s with pwr := { p with held := true } }) ∧
      (p.wakes = [] → exec .powerExit s = .next s) ∧
      (∀ src t, p.wakes = [(src, t)] → src < 8 → 35000 ≤ p.filtered → p.state = 2 → exec .powerExit s = .next { s with
        pwr := { p with held := false, exiting := some s.now, wakeLast := put 0 3 src ||| put 3 3 2 ||| put 16 48 t } }) ∧
      (∀ src t, p.wakes = [(src, t)] → 35000 ≤ p.filtered → p.state = 3 → p.noAck = false → p.ann = none →
        ∃ s' x, exec .powerExit s = .next s' ∧ s'.pwr.exiting = some s.now ∧ s'.pwr.ann = some x ∧ x.kind = 0 ∧ x.value = 565)) ∧
    (∀ t, p.exiting = some t → s.mbx.whist = [] → still →
      (∃ s', exec .powerExitDone s = .next s' ∧ s'.pwr.state = 0 ∧ s'.pwr.exiting = none ∧ s'.pwr.wakes = [] ∧
        (∀ g, g < 336 → (s'.fold g).island.stopped = false) ∧
        (p.state = 3 → ∀ g c k, g < 336 → (s'.thread g c k).st = .idle) ∧
        (∀ a, inFoldStore a = false → rdByte s'.mem a = rdByte s.mem a) ∧
        ∀ c, s.cmdOf 0x0B = some c → c.started = true →
          Completed c .ok [0, BitVec.ofNat 64 (s.now - p.reqAt)] s'))

/-- R555, R558–R563, R566, R570, R678, R684–R686: a reading from the throttle limit removes boost, then lowers the clock or the base-die rate to its floor, and
an entry into throttling raises vector 4; 10,000,000 ticks at 5 °C below the limit release it; a reading ends boost where
R561 no longer allows it; a trip is a COLD reset with THERMTRIP# asserted. A
fold is boosted to at most 1.8 GHz, and only while R561 and R558 allow it. At the cap one measure more applies, below it
one less. The mean over 100,000 ticks may reach 105 % of the cap. PWR_CAP keeps its range and records a clamp. A private read on I3C answers the management block, a private
write wakes the device and writes nothing.
Next states answered for: thermalThrottle, thermalRelease, thermalTrip, powerCapEnforce, pwrCapWrite,
i3cPrivateRead, i3cPrivateWrite, dynamicAddress, boost. -/
def Obligations.TemperatureCapAndManagement : Prop :=
  ∀ (s : State) (f : FoldNo) (stk short : Bool) (temp mhz watts who len : Nat) (a : Fin 128) (v : W64) (bs : List Byte), Settled s →
    let p := s.pwr
    let g := if stk then 1 else 0
    let hot := if temp ≤ 90 then p.hotAt else SMap.set 0 p.hotAt g s.now
    let seen := if stk then { p with hotAt := hot, tStack := temp, tStackMax := max p.tStackMax temp }
      else { p with hotAt := hot, tDie := temp, tDieMax := max p.tDieMax temp }
    let read := { s with pwr := seen }.checkBoost
    let allow := (s.cfg.boot = .up ∨ s.cfg.boot = .noImage) ∧ p.level = 0 ∧ 38000 ≤ p.filtered ∧ p.tDie < 85 ∧ p.tStack < 80 ∧
      p.capped = 0 ∧ p.pIn + 100 ≤ fld p.cap 0 12 ∧ 1500 ≤ mhz ∧ mhz ≤ 1800 ∧ 0 ∉ p.therm
    let n := fld v 0 12
    let m := max 2000 (min n 3800)
    (s.hubOn = true →
      ((read.mayBoost = true → read = { s with pwr := seen }) ∧
        (read.mayBoost = false → read = { s with pwr := seen, folds := read.folds } ∧ ∀ k, (read.fold k).island.boostMhz = 1500)) ∧
      (temp < 95 → exec (.thermalThrottle stk temp) s = .next read) ∧
      (95 ≤ temp → ∃ s', exec (.thermalThrottle stk temp) s = .next s' ∧ g ∈ s'.pwr.therm ∧
        (∀ k, (s'.fold k).island.boostMhz = 1500) ∧
        ((∃ x ∈ s.folds, 1500 < x.2.island.boostMhz) → s'.pwr.thermMhz = p.thermMhz ∧ s'.pwr.stackPct = p.stackPct) ∧
        (g ∉ p.therm → bit (s.host.msix 9) 32 = false → s'.host.msi = s.host.msi ++ [4]) ∧
        (g ∉ p.therm → fld s'.pwr.cnt 32 16 = satAdd 16 (fld p.cnt 32 16) 1) ∧
        (g ∈ p.therm → s'.host = s.host ∧ s'.pwr.cnt = p.cnt) ∧
        ((∀ x ∈ s.folds, x.2.island.boostMhz ≤ 1500) →
          s'.pwr.thermMhz = (if stk then p.thermMhz else max 750 (p.thermMhz - 100)) ∧
          s'.pwr.stackPct = (if stk then max 50 (p.stackPct - 10) else p.stackPct)) ∧
        s' = { s with folds := s'.folds, host := s'.host, pwr := s'.pwr }) ∧
      (temp ≤ 90 → exec (.thermalRelease stk temp) s = .next { read with now := max s.now (SMap.get 0 p.hotAt g + 10000000), pwr := { seen with
        therm := p.therm.filter (· ≠ g),
        thermMhz := if stk then p.thermMhz else 1500, stackPct := if stk then 100 else p.stackPct } }) ∧
      (90 < temp → exec (.thermalRelease stk temp) s = .next read) ∧
      (temp < (if stk then 105 else 115) → exec (.thermalTrip stk temp) s = .next read) ∧
      ((if stk then 105 else 115) ≤ temp → ∃ s', exec (.thermalTrip stk temp) s = .next s' ∧ s'.pwr.trip = true ∧
        ColdReset 3 s s') ∧
      (allow → exec (.boost f mhz) s = .next (s.setFold f.val { s.fold f.val with
        island := { (s.fold f.val).island with boostMhz := mhz } })) ∧
      (¬ allow → exec (.boost f mhz) s = .next (s.setFold f.val { s.fold f.val with
        island := { (s.fold f.val).island with boostMhz := 1500 } })) ∧
      (100 * watts < fld p.cap 0 12 * (if short then 105 else 100) → exec (.powerCapEnforce ⟨short, watts⟩) s = .next { s with
        pwr := { p with pIn := if short then p.pIn else watts, capped := p.capped - 1 } }) ∧
      (fld p.cap 0 12 * (if short then 105 else 100) ≤ 100 * watts → ∃ s', exec (.powerCapEnforce ⟨short, watts⟩) s = .next s' ∧
        s'.pwr = { p with pIn := if short then p.pIn else watts, capped := min 4 (p.capped + 1) } ∧ s' = { s with folds := s'.folds, pwr := s'.pwr } ∧
        ∀ k, (s'.fold k).island.boostMhz = 1500) ∧
      ((who = 1 → s.host.ready = true) → exec (.pwrCapWrite who v) s = .next { s with pwr := { p with
        cap := put 0 12 m ||| put 12 1 (b2n ((p.cap.getLsbD 12 && !v.getLsbD 12) || decide (m ≠ n))) } }.checkBoost)) ∧
    (p.i3c = true →
      exec (.dynamicAddress (.setdasa a)) s = .next { s with pwr := { p with dynAddr := some a.val } } ∧
      exec (.dynamicAddress (.entdaa a)) s = .next ({ s with pwr := { p with dynAddr := some a.val } }.answer
        ((leBytes 6 s.provisionedId).reverse ++ [Config.i3cChar 0, Config.i3cChar 1])) ∧
      (∃ s', exec (.i3cPrivateRead len) s = .next s' ∧ s' = { s with rdata := s'.rdata } ∧ s'.rdata.length = min len 32 ∧
        (s.hubOn = false → 14 ≤ len → s'.rdata[13]? = some 0xFF) ∧
        (2 ≤ len → s'.rdata.take 2 = [0x20, 0x96]) ∧ (15 ≤ len → s'.rdata[14]? = some (BitVec.ofNat 8 p.level))) ∧
      (p.state = 4 → exec (.i3cPrivateWrite bs) s = .next { s with
        pwr := { p with state := 0, cause := 5, wakeLast := put 0 3 1 ||| put 3 3 4 } }) ∧
      ((p.state = 2 ∨ p.state = 3) → p.wakes = [] → exec (.i3cPrivateWrite bs) s = .next { s with
        pwr := { p with wakes := [(1, s.now)] } }) ∧
      (p.state ≠ 4 → p.state ≠ 2 → p.state ≠ 3 → p.entering = none → exec (.i3cPrivateWrite bs) s = .next s)) ∧
    (p.i3c = false → exec (.dynamicAddress (.setdasa a)) s = .next s ∧ exec (.dynamicAddress (.entdaa a)) s = .next s ∧ exec (.i3cPrivateWrite bs) s = .next s)

/-! ### Security (chapter 15) -/

/-- R588–R595: a request with another OP is refused with UNSUPPORTED, one in an illegal host state with NOT_IN_STATE and the
state. NONCE fills its block with four fresh words and makes them the path's nonce. LOCK returns to D0; DEBUG_NS enters D1
from D0 if the settings allow. UNLOCK with a certificate that passes every check enters its level and spends the nonce; D2
erases the identity key until COLD. One that fails a check is refused and changes no level. An UNLOCK waits for an
entry of SET_POWER; no request is taken while a fuse write is in progress or a reply waits for its channel.
Next states answered for: nonce, unlock, lock, debugNs, svnCommit, rma, revoke. -/
def Obligations.SecurityRequests : Prop :=
  ∀ (s t : State) (req : Option JtagReq) (w : W64) (keyOk sigOk : Bool),
    let x := s.sec
    let a := fld w 16 48
    let op := fld w 0 8
    let inBuf := ∃ r, req = some r
    let blockOk := fun (n : Nat) => a % 64 = 0 ∧ (inBuf → a + n ≤ 4096) ∧
      (req = none → a + n ≤ 0x00F000000000 ∧ ∀ q, a / 0x200000 ≤ q → q ≤ (a + n - 1) / 0x200000 → s.pageEntry q &&& 0x23 = 0x21)
    let c := leWords 8 (match req with
      | some r => (r.buf.drop a).take 64
      | none => s.readBytes a 64)
    let nonce := match req with
      | some _ => x.jtagN
      | none => x.hostN
    let lv := fld (wd c 6) 0 8
    let root := bit (wd c 6) 8
    let len := 64 + (if root then 1793 else 0) + 1280
    let good := hdrVer c = 1 ∧ hdrType c = 0x80 ∧ fld (wd c 0) 12 20 = 0 ∧ bit (wd c 6) 9 = false ∧ fld (wd c 6) 14 50 = 0 ∧
      wd c 7 = 0 ∧ wd c 1 = Config.deviceId ∧ (lv = 1 ∨ lv = 2) ∧
      (∃ p : PathNonce, nonce = some p ∧ s.now ≤ p.at_ + 600000000000 ∧
        ∀ i, i < 4 → wd c (2 + i) = Config.freeWord (p.draw + i)) ∧
      (if root then keyOk = true ∧ (x.rootRev >>> fld (wd c 6) 10 2) % 2 = 0
        else s.cfg.boot ≠ .noImage ∧ (lv = 1 ∨ (x.level = 1 ∧ x.permDbg = true))) ∧ sigOk = true
    let spent := fun (u : State) => match req with
      | some _ => { u with sec := { u.sec with jtagN := none } }
      | none => { u with sec := { u.sec with hostN := none } }
    let mayUnlock := s.host.st ≠ .running ∧ s.host.st ≠ .recovering
    (Asks s req w t →
      (op = 0 ∨ 7 < op → Replies (.lock req) s req w 0x0F 0 t) ∧
      (op = 3 → Replies (.lock req) s req w 0 0 { t with sec := { t.sec with debug := 0 } }) ∧
      (op = 4 → bit (wd s.cfg.settings 1) 1 = false → Replies (.debugNs req) s req w 0x08 0 t) ∧
      (op = 4 → bit (wd s.cfg.settings 1) 1 = true → Replies (.debugNs req) s req w 0 1
        { t with sec := { t.sec with debug := if x.debug = 0 then 1 else x.debug } }) ∧
      (op = 1 → ¬ blockOk 64 → Replies (.nonce req) s req w 0x03 0 t) ∧
      (op = 1 → blockOk 64 → s.ue = [] →
        let bytes := wordsBytes ((List.range 4).map fun i => Config.freeWord (s.free + i))
        let n := some { draw := s.free, at_ := s.now : PathNonce }
        Replies (.nonce req) s req w 0 0 (match req with
          | some r => { t with
              free := s.free + 4
              sec := { t.sec with jtagN := n, buf := r.buf.take a ++ bytes ++ r.buf.drop (a + 32) } }
          | none => { t with free := s.free + 4, sec := { t.sec with hostN := n }, mem := putBytes s.mem a bytes,
                             notes := (s.notify a 32).notes })) ∧
      (op = 2 → s.pwr.entering = none → ¬ mayUnlock → Replies (.unlock req keyOk sigOk) s req w 0x07 s.hostCode t) ∧
      (op = 2 → s.pwr.entering = none → mayUnlock → s.ue = [] →
        (¬ (blockOk 64 ∧ blockOk len) → Replies (.unlock req keyOk sigOk) s req w 0x03 0 t) ∧
        (blockOk 64 → blockOk len → good → Replies (.unlock req keyOk sigOk) s req w 0 lv
          (let u := spent t
           { u with sec := if lv = 2 then { u.sec with debug := 2, opened := true, idReady := false, dbgKey := true }
             else { u.sec with debug := lv } })) ∧
        (blockOk 64 → blockOk len → ¬ good → ∃ st, st ≠ 0 ∧
          (Replies (.unlock req keyOk sigOk) s req w st 0 t ∨ Replies (.unlock req keyOk sigOk) s req w st 0 (spent t)))) ∧
      (op = 2 → s.pwr.entering ≠ none → exec (.unlock req keyOk sigOk) s = .next s)) ∧
    (Settled s → (x.fuse ≠ none ∨ x.replies ≠ [] ∨ (req = none ∧ (s.mbox 65).full = false) ∨ (inBuf ∧ x.tap ≠ 0x10)) →
      ∀ i ∈ [Instr.nonce req, .unlock req keyOk sigOk, .lock req, .debugNs req, .svnCommit req, .rma req keyOk sigOk,
        .revoke req keyOk sigOk], exec i s = .next s)

/-- R275, R538, R574, R576, R578, R589, R591: SVN_COMMIT, RMA and REVOKE are taken in OFFLINE alone, and each begins a fuse program, or is
refused with SUPPLY_LOW; RMA and REVOKE need a certificate of LEVEL 3 or 4 that passes R594. When the program ends the floor, the
level or the revocation bit is fused and the request, or FUSE_REPAIR, is answered; one that the supply cut short
completed what it had begun, and is counted where that was not all.
Next states answered for: svnCommit, rma, revoke, fuseWriteDone. -/
def Obligations.FuseRequests : Prop :=
  ∀ (s t : State) (req : Option JtagReq) (w : W64) (keyOk sigOk : Bool) (words : Nat),
    let x := s.sec
    let op := fld w 0 8
    let a := fld w 16 48
    let low := (x.svns.min?).getD 0
    let fuses := fun (i : Instr) (kind arg : Nat) (u : State) =>
      exec i s = .next { u with sec := { u.sec with fuse := some { kind := kind, arg := arg, req := w, jtag := req.isSome } } }
    (Asks s req w t → s.host.st ≠ .offline →
      (op = 5 → Replies (.svnCommit req) s req w 0x07 s.hostCode t) ∧
      (op = 6 → Replies (.rma req keyOk sigOk) s req w 0x07 s.hostCode t) ∧
      (op = 7 → Replies (.revoke req keyOk sigOk) s req w 0x07 s.hostCode t)) ∧
    (Asks s req w t → s.host.st = .offline → op = 5 →
      (low ≤ x.svnFloor → Replies (.svnCommit req) s req w 0 x.svnFloor t) ∧
      (x.svnFloor < low → 2 ≤ s.pwr.level → Replies (.svnCommit req) s req w 0x11 0 t) ∧
      (x.svnFloor < low → s.pwr.level < 2 → fuses (.svnCommit req) 2 low t)) ∧
    (∀ r c, req = some r → Asks s req w t → s.host.st = .offline → a % 64 = 0 → a + 3137 ≤ 4096 →
      c = leWords 8 ((r.buf.drop a).take 64) →
      let ok := fun (o : Nat) => (t.crtCheck c o true keyOk sigOk).1 = .ok
      let u := { t with sec := { t.sec with jtagN := none } }
      (op = 6 → ok 6 → s.pwr.level < 2 → fuses (.rma req keyOk sigOk) 3 0 u) ∧
      (op = 6 → ok 6 → 2 ≤ s.pwr.level → Replies (.rma req keyOk sigOk) s req w 0x11 0 u) ∧
      (op = 7 → ok 7 → s.pwr.level < 2 → fuses (.revoke req keyOk sigOk) 4 (fld (wd c 6) 12 2) u) ∧
      (op = 6 → sigOk = false → ∃ st, st ≠ 0 ∧ ∃ v, Replies (.rma req keyOk sigOk) s req w st 0 v ∧ v.sec.fuse = none ∧
        v.sec.level = x.level)) ∧
    (∀ j : FuseJob, x.fuse = some j → Settled s → j.jtag = true →
      let u := { s with sec := { s.sec with fuse := none } }
      let answered := fun (sec : Sec) (st v : Nat) => exec (.fuseWriteDone words) s = .next { u with
        sec := { sec with jtagRep := put 0 16 (fld j.req 0 16) ||| put 16 8 st ||| put 24 40 v } }
      (j.kind = 2 → j.cut = false → answered { u.sec with svnFloor := j.arg } 0 j.arg) ∧
      (j.kind = 2 → j.cut = true → words = 1 → x.svnFloor < 32 → 32 < j.arg → exec (.fuseWriteDone words) s = .next { u with
        sec := { u.sec with svnFloor := 32, jtagRep := put 0 16 (fld j.req 0 16) ||| put 16 8 0x11 ||| put 24 40 32 },
        pwr := { s.pwr with cnt := bumpFld s.pwr.cnt 48 16 1 } }) ∧
      (j.kind = 3 → answered { u.sec with level := 2, idReady := false, dbgKey := true } 0 2) ∧
      (j.kind = 4 → answered { u.sec with rootRev := x.rootRev ||| 2 ^ j.arg } 0 (x.rootRev ||| 2 ^ j.arg))) ∧
    (∀ (j : FuseJob) (c : Cmd), x.fuse = some j → Settled s → j.kind = 1 → s.cmdOf 0x0C = some c →
      let all := s.softRepairs
      let n := if j.cut then min all (max 1 words) else all
      ∃ s', exec (.fuseWriteDone words) s = .next s' ∧ s'.sec.fuse = none ∧
        Completed c (if n < all then .supplyLow else .ok) [BitVec.ofNat 64 n] s' ∧ s'.mem = s.mem ∧
        s'.pwr = (if n < all then { s.pwr with cnt := bumpFld s.pwr.cnt 48 16 1 } else s.pwr) ∧
        (n = all → ∀ d, d < 20 → (s'.die d).soft = 0 ∧ (s'.die d).hard = satAdd 16 (s.die d).hard (s.die d).soft))

/-- R481, R588, R596–R599, R602: the DOE objects answer the host, under Amidom's vendor ID: the identity and the attestation NOT_READY without a
key, the owner certificate NOT_READY when no image runs, each of its length otherwise; an attestation begins with its
type and DEVICE_ID, repeats the verifier's nonce and draws a fresh signature. IDCODE reads 0x09620A8F. A TAP instruction that leaves
the pins to the device is loaded and frees them; EXTEST, CLAMP and HIGHZ take the pins in OFFLINE, and out of it raise a
WARM reset first. The debug access port does nothing at D0, nor under another instruction; at D1 and D2 it reads
and writes registers and memory as agent 1 and 3.
Next states answered for: getIdentity, getOwnerCert, attest, idcode, samplePreload, extest, clamp, highz, secmbx,
dap, bypass, dapAccess. -/
def Obligations.IdentityAndDebugAccess : Prop :=
  ∀ (s : State) (n : List Byte) (a : Nat) (v : W64) (write : Bool), Settled s →
    let x := s.sec
    let reply := fun (ty st : Nat) (bs : List Byte) (u : State) =>
      { u with rdata := leBytes 8 (put 0 8 ty ||| put 8 8 st).toNat ++ bs,
               sec := { u.sec with doe := doeObject 0x1D7C ty (leBytes 8 (put 0 8 ty ||| put 8 8 st).toNat ++ bs) } }
    let crypto := fun (k d m : Nat) => (List.range m).map (Config.cryptoByte k d)
    let signer := if x.idReady then 0 else 1
    let answers := fun (i : Instr) (ty len : Nat) => ∃ s', exec i s = .next s' ∧ s'.sec.doe = doeObject 0x1D7C ty s'.rdata ∧
      s'.rdata.take 8 = leBytes 8 ty ∧ s'.rdata.length = len ∧
      s' = { s with rdata := s'.rdata, free := s'.free, sec := { s.sec with doe := s'.sec.doe } }
    let loads := fun (i : Instr) (code : Nat) (u : State) => exec i s = .next { u with
      sec := { u.sec with tap := code, pins := false, pinsWait := false } }
    let takesPins := fun (i : Instr) (code : Nat) =>
      (s.host.st = .offline → (s.hubOn = false ∨ s.host.ready = true) → exec i s = .next { s with
        sec := { x with tap := code, pins := true } }) ∧
      (s.hubOn = true → s.host.st ≠ .offline → s.cfg.boot = .up → ∃ s', exec i s = .next s' ∧ s'.host.st = .offline ∧
        s'.host.ready = false ∧ s'.cfg.boot = .warm ∧ s'.sec.tap = code ∧ s'.sec.pinsWait = true ∧ s'.sec.debug = 0)
    let who := if x.debug = 2 then 3 else 1
    let open_ := s.hubOn = true ∧ x.tap = 0x11 ∧ x.debug ≠ 0 ∧ a % 8 = 0
    let down := s.pwr.state = 2 ∨ s.pwr.state = 3
    let acc := if who = 3 then (if write then Acc.write else .read) else if write then .hostWrite else .hostRead
    (s.hubOn = true → (s.cfg.boot = .up ∨ s.cfg.boot = .noImage) → s.host.ready = true → s.host.perst = false →
      (x.idReady = false → x.dbgKey = false → exec .getIdentity s = .next (reply 1 0x01 [] s) ∧
        exec (.attest n) s = .next (reply 3 0x01 [] s)) ∧
      (x.idReady = true ∨ x.dbgKey = true →
        exec .getIdentity s = .next (reply 1 0 (leBytes 8 Config.deviceId.toNat ++ leBytes 8 signer ++ crypto signer 0 1793) s) ∧
        answers (.attest n) 3 (8 + 464 + 1280) ∧
        (n.length = 32 → ∀ s', exec (.attest n) s = .next s' → (s'.rdata.drop 16).take 40 = leBytes 8 Config.deviceId.toNat ++ n ∧
          s'.free = s.free + 1 ∧ s'.rdata.drop (8 + 464) = crypto 4 s.free 1280)) ∧
      (s.cfg.boot = .noImage → exec .getOwnerCert s = .next (reply 2 0x01 [] s)) ∧
      (s.cfg.boot = .up → exec .getOwnerCert s = .next (reply 2 0 (crypto 2 x.meas 3137) s))) ∧
    (s.cfg.boot ≠ .noPower →
      loads .idcode 0x01 { s with rdata := [0x8F, 0x0A, 0x62, 0x09] } ∧ loads .samplePreload 0x02 s ∧ loads .secmbx 0x10 s ∧
      loads .dap 0x11 s ∧ loads .bypass 0xFF s ∧ takesPins .extest 0x03 ∧ takesPins .clamp 0x04 ∧ takesPins .highz 0x05) ∧
    (¬ open_ → exec (.dapAccess write a v) s = .next s) ∧
    (open_ → place a = .nowhere → exec (.dapAccess write a v) s
      = .next (if write then s else { s with rdata := List.replicate 8 0xFF })) ∧
    (open_ → a < 0x00F000000000 → s.ue = [] →
      (down → exec (.dapAccess write a v) s = .next (if write then s else { s with rdata := List.replicate 8 0xFF })) ∧
      (¬ down → s.accStatus who acc a 8 = .ok → exec (.dapAccess write a v) s = .next (if write
        then { s with mem := putBytes s.mem a (leBytes 8 v.toNat), notes := (s.notify a 8).notes } else { s with rdata := s.readBytes a 8 })) ∧
      (¬ down → s.accStatus who acc a 8 ≠ .ok → exec (.dapAccess write a v) s
        = .next (if write then s else { s with rdata := List.replicate 8 0xFF }))) ∧
    (open_ → a = 0x032000000050 → write = true → exec (.dapAccess write a v) s = .next { s with
      host := { s.host with regs := { s.host.regs with bar2Base := put 21 19 (fld v 21 19) } } })

/-! ### Debug (chapter 16) -/

/-- R615, R617, R624, R626, R629, R636–R638: a write of DBG_TRC_CTL that sets EN starts a trace if the settings pass R617, and
otherwise leaves EN 0 with the failure in ERR; one that clears EN stops it; one that changes another field while EN = 1 is
ignored with BUSY. FLUSH and REARM act only in RUNNING and in FROZEN. TRIG_NOW of the host triggers a running die that takes source 5, and a
triggered die with no record left to write freezes and names its segment; the second die to freeze raises vector 5. Samples
and SYNC records come at their ticks.
Next states answered for: traceEnable, flush, rearm, trigNow, traceFreeze, traceSample, traceSync, traceFlushDone. -/
def Obligations.TraceControl : Prop :=
  ∀ (s : State) (who : Nat) (d : Fin 2) (v : W64), Settled s → s.hubOn = true → (who = 1 → s.host.ready = true) →
    let t := s.trc d.val
    let o := s.trc (1 - d.val)
    let on := t.ctl.getLsbD 0
    let w := v &&& 0x00FFFFFF000FFFE7
    let same := setFld w 0 1 0 = setFld t.ctl 0 1 0
    let ctl := exec (.traceEnable who d v) s
    let is := fun (x : Trc) => s.setTrc d.val x
    (on = true → ¬ same → ctl = .next (is { t with err := 0x09 })) ∧
    (on = true → same → v.getLsbD 0 = false → v.getLsbD 3 = false → v.getLsbD 4 = false →
      ctl = .next (is { t with ctl := setFld t.ctl 0 1 0, st := .off, buf := [], post := 0, pmcHeld := false })) ∧
    (on = false → v.getLsbD 0 = true → v.getLsbD 3 = false → v.getLsbD 4 = false →
      (s.traceCheck d.val (setFld w 0 1 0) = .ok → ∃ s', ctl = .next s' ∧ (s'.trc d.val).st = .running ∧
        (s'.trc d.val).ctl.getLsbD 0 = true ∧ (s'.trc d.val).enAt = s.now ∧ (s'.trc d.val).syncAt = s.now / 2 ^ 38 ∧
        s'.trc (1 - d.val) = o) ∧
      (s.traceCheck d.val (setFld w 0 1 0) ≠ .ok → ctl = .next (is { t with
        ctl := setFld w 0 1 0, err := (s.traceCheck d.val (setFld w 0 1 0)).code })) ∧
      (fld v 16 4 = 0 ∨ 5 < fld v 16 4 ∨ fld v 44 12 < fld v 32 12 → s.traceCheck d.val (setFld w 0 1 0) = .bounds)) ∧
    (on = true → same → v.getLsbD 0 = true →
      (v.getLsbD 3 = true → v.getLsbD 4 = false → t.st = .running →
        exec (.flush who d v) s = .next (is { t with st := .flushing, thaw := .running })) ∧
      (v.getLsbD 3 = true → v.getLsbD 4 = false → t.st ≠ .running → exec (.flush who d v) s = .next s) ∧
      (v.getLsbD 4 = true → v.getLsbD 3 = false → t.st = .frozen → t.pmcHeld = false →
        exec (.rearm who d v) s = .next (is { t with st := .running })) ∧
      (v.getLsbD 4 = true → v.getLsbD 3 = false → t.st ≠ .frozen → exec (.rearm who d v) s = .next s)) ∧
    (v.getLsbD 20 = true →
      let trig := put 0 20 (fld v 0 20) ||| put 32 32 (fld v 32 32)
      (who = 1 → t.phase = .running → v.getLsbD 5 = true → t.ctl.getLsbD 5 = false → (o.phase ≠ .running ∨ o.trig.getLsbD 7 = false) →
        ∃ s', exec (.trigNow who d v) s = .next s' ∧ (s'.trc d.val).phase = .triggered ∧
          (s'.trc d.val).post = fld v 32 32 ∧ (s'.trc d.val).trig = trig ∧ s'.trc (1 - d.val) = o) ∧
      (who ≠ 1 ∨ t.phase ≠ .running ∨ v.getLsbD 5 = false → exec (.trigNow who d v) s = .next (is { t with trig := trig }))) ∧
    (t.phase = .triggered → t.post = 0 →
      (∃ s', exec (.traceFreeze d) s = .next s' ∧ (s'.trc d.val).st = .frozen ∧ s'.trc (1 - d.val) = o) ∧
      (t.buf = [] → o.st ≠ .frozen → exec (.traceFreeze d) s = .next (is { t with st := .frozen, tseg := t.trigSeg })) ∧
      (t.buf = [] → o.st = .frozen → bit (s.host.msix 11) 32 = false → exec (.traceFreeze d) s
        = .next { is { t with st := .frozen, tseg := t.trigSeg } with host := { s.host with msi := s.host.msi ++ [5] } })) ∧
    (¬ (t.phase = .triggered ∧ t.post = 0) → exec (.traceFreeze d) s = .next s) ∧
    (t.st = .flushing → (∃ s', exec (.traceFlushDone d) s = .next s' ∧ (s'.trc d.val).st = t.thaw ∧ s'.trc (1 - d.val) = o) ∧
      (t.buf = [] → exec (.traceFlushDone d) s = .next (is { t with st := t.thaw }))) ∧
    (t.st ≠ .flushing → exec (.traceFlushDone d) s = .next s) ∧
    (o.ctl.getLsbD 0 = false ∨ o.ctl.getLsbD 10 = false →
      (on = false ∨ t.ctl.getLsbD 10 = false → exec .traceSample s = .next s) ∧
      (on = true → t.ctl.getLsbD 10 = true → ∃ s', exec .traceSample s = .next s' ∧
        s'.now = max s.now (t.enAt + (t.samples + 1) * 2 ^ fld t.ctl 11 5) ∧ (s'.trc d.val).samples = t.samples + 1 ∧
        s'.trc (1 - d.val) = o)) ∧
    (o.accepts = false →
      (t.accepts = false → exec .traceSync s = .next s) ∧
      (t.accepts = true → ∃ s', exec .traceSync s = .next s' ∧ s'.now = max s.now ((t.syncAt + 1) * 2 ^ 38) ∧
        (s'.trc d.val).syncAt = s'.now / 2 ^ 38 ∧ s'.trc (1 - d.val) = o))

/-- R630–R634: TAKE requests a headcount, and the watchdog one with cause 2 while the job runs; a request during another is refused, a TAKE
with BUSY, and one without a usable destination page reads BOUNDS. The capture, 2,000 ticks after the request, writes 700,416 bytes that
begin with the snapshot's header and its tick, counts the headcount, and changes nothing else.
Next states answered for: headcountTake, headcountWatchdog, headcountCapture. -/
def Obligations.Headcounts : Prop :=
  ∀ (s : State) (who : Nat) (v : W64), Settled s →
    let g := s.dbg
    let page := fld g.hcDest 21 19
    let usable := page < 0x00F000000000 / 0x200000 ∧ s.pageEntry page &&& 0x2B = 0x21 ∧
      (s.trc 0).holds page = false ∧ (s.trc 1).holds page = false
    let ctl := put 1 1 (b2n (v.getLsbD 1)) ||| put 8 16 (fld v 8 16)
    let n := fld g.hcCtl 8 16
    let due := max s.now (g.wdogAt + n * 1048576)
    (s.hubOn = true → (who = 1 → s.host.ready = true) → v.getLsbD 0 = true →
      (g.hcReq ≠ none → exec (.headcountTake who v) s = .next { s with dbg := { g with hcCtl := ctl, hcErr := 0x09 } }) ∧
      (g.hcReq = none → ¬ usable → exec (.headcountTake who v) s = .next { s with dbg := { g with hcCtl := ctl, hcErr := 0x03 } }) ∧
      (g.hcReq = none → usable → exec (.headcountTake who v) s
        = .next { s with dbg := { g with hcCtl := ctl, hcReq := some (s.now, 0) } })) ∧
    (n ≠ 0 → s.host.st = .running → Untraced s →
      (g.hcReq ≠ none → exec .headcountWatchdog s = .next { s with now := due, dbg := { g with wdogAt := due } }) ∧
      (g.hcReq = none → usable → exec .headcountWatchdog s
        = .next { s with now := due, dbg := { g with wdogAt := due, hcReq := some (due, 2) } })) ∧
    (n = 0 ∨ s.host.st ≠ .running → exec .headcountWatchdog s = .next s) ∧
    (g.hcReq = none → exec .headcountCapture s = .next s) ∧
    (∀ t cause, g.hcReq = some (t, cause) → s.ue = [] → ∃ bytes, exec .headcountCapture s = .next { s with
        now := max s.now (t + 2000), mem := putBytes s.mem (page * 0x200000) bytes,
        notes := (s.notify (page * 0x200000) 700416).notes,
        dbg := { g with hcReq := none, hcCount := (g.hcCount + 1) % 65536 } } ∧
      bytes.length = 700416 ∧
      bytes.take 16 = wordsBytes [put 0 8 0x90 ||| put 8 4 1 ||| put 12 2 cause, BitVec.ofNat 64 (t + 2000)])

/-! ### What every step keeps -/

/-- Whatever command is at the front: after a step nothing found waits to be acted on, memory is in its canonical form
if it was before, and the queue is what was behind the command; and no command but a SUPPLY_SAMPLE beyond R672 ends in
anything but a next state. -/
def Obligations.EveryStepKeepsMemoryAndQueue : Prop :=
  ∀ (s : State), Memory.wf s.mem = true → Settled s →
    (∀ s', step s = .next s' → Memory.wf s'.mem = true ∧ Settled s' ∧ s'.pending = s.pending.tail) ∧
    (∀ c rest, s.pending = c :: rest → (∀ mv watts, c = .supplySample mv watts → -500 ≤ mv ∧ mv ≤ 60000) →
      ∃ s', step s = .next s')
end

