-- ==== Sys2Proof/Laws/Bits.lean ====
section
/-!
SUPPORT. Sys2Proof/Laws/Bits.lean: sign extension as a conversion of bit vectors.
-/
namespace Sys2Proof.Machine

/-- The low bits of a number, read as a two's-complement number. -/
theorem sext_eq_toInt {n : Nat} (h : 0 < n) (v : Nat) : sext n v = (BitVec.ofNat n v).toInt := by
  have e : 2 ^ n = 2 * 2 ^ (n - 1) := by
    obtain ⟨k, rfl⟩ : ∃ k, n = k + 1 := ⟨n - 1, by omega⟩
    rw [Nat.add_sub_cancel, Nat.pow_succ, Nat.mul_comm]
  have e' : (2 : Int) ^ n = ((2 ^ n : Nat) : Int) := by simp
  simp only [sext, BitVec.toInt, BitVec.toNat_ofNat, e']
  split <;> split <;> omega

theorem w64_sext {n : Nat} (h : 0 < n) (v : Nat) : w64 (sext n v) = (BitVec.ofNat n v).signExtend 64 := by
  rw [sext_eq_toInt h, w64, BitVec.signExtend]

end Sys2Proof.Machine
end

