-- ==== Sys2Proof/Laws/Bytes.lean ====
section
/-!
SUPPORT. Sys2Proof/Laws/Bytes.lean: numbers and words laid out as bytes, and read back.
-/
namespace Sys2Proof.Machine

@[simp] theorem length_leBytes (n v : Nat) : (leBytes n v).length = n := by
  induction n generalizing v with
  | zero => rfl
  | succ n ih => simp [leBytes, ih]

/-- The bytes of a number spell it, as far as they reach. -/
theorem leNat_leBytes (n v : Nat) : leNat (leBytes n v) = v % 256 ^ n := by
  induction n generalizing v with
  | zero => simp [leBytes, leNat, Nat.mod_one]
  | succ n ih =>
    have e : v % 256 ^ (n + 1) = v % 256 + 256 * (v / 256 % 256 ^ n) := by rw [Nat.pow_add_one', Nat.mod_mul]
    rw [leBytes, leNat, ih, BitVec.toNat_ofNat, e]

/-- The number that bytes spell, in bytes again. -/
theorem leBytes_leNat (bs : List Byte) : leBytes bs.length (leNat bs) = bs := by
  induction bs with
  | nil => rfl
  | cons b bs ih =>
    have h : b.toNat < 256 := b.isLt
    have e : (b.toNat + 256 * leNat bs) / 256 = leNat bs := by omega
    rw [List.length_cons, leNat, leBytes, e, ih]
    congr 1
    apply BitVec.eq_of_toNat_eq
    simp
    omega

@[simp] theorem ofNat_leNat_leBytes (w : W64) : BitVec.ofNat 64 (leNat (leBytes 8 w.toNat)) = w := by
  have h : w.toNat % 256 ^ 8 = w.toNat := Nat.mod_eq_of_lt (by have := w.isLt; omega)
  rw [leNat_leBytes, h, BitVec.ofNat_toNat, BitVec.setWidth_eq]

@[simp] theorem length_wordsBytes (ws : List W64) : (wordsBytes ws).length = 8 * ws.length := by
  induction ws with
  | nil => rfl
  | cons w ws ih => simp only [wordsBytes, List.flatMap_cons, List.length_append, length_leBytes, List.length_cons] at *; omega

/-- Words laid out as bytes are read back. -/
theorem leWords_wordsBytes (ws : List W64) (rest : List Byte) : leWords ws.length (wordsBytes ws ++ rest) = ws := by
  induction ws with
  | nil => rfl
  | cons w ws ih =>
    have e : wordsBytes (w :: ws) ++ rest = leBytes 8 w.toNat ++ (wordsBytes ws ++ rest) := by simp [wordsBytes]
    have t : (leBytes 8 w.toNat ++ (wordsBytes ws ++ rest)).take 8 = leBytes 8 w.toNat := List.take_left' (length_leBytes 8 _)
    have d : (leBytes 8 w.toNat ++ (wordsBytes ws ++ rest)).drop 8 = wordsBytes ws ++ rest := List.drop_left' (length_leBytes 8 _)
    rw [e, List.length_cons, leWords, t, d, ih, ofNat_leNat_leBytes]

end Sys2Proof.Machine
end

