-- ==== Sys2Proof/Laws/Maps.lean ====
section
/-!
SUPPORT. Sys2Proof/Laws/Maps.lean: what reading a sparse map gives after it was written, whatever the map.
-/
namespace Sys2Proof.Machine

theorem SMap.get_drop_same (d : α) (m : SMap α) (i : Nat) : SMap.get d (SMap.drop m i) i = d := by
  induction m with
  | nil => rfl
  | cons x m ih =>
    obtain ⟨k, v⟩ := x
    by_cases h : k = i
    · simp [SMap.drop, h, ih]
    · simp [SMap.drop, SMap.get, h, ih]

theorem SMap.get_drop_other (d : α) (m : SMap α) {i j : Nat} (h : j ≠ i) :
    SMap.get d (SMap.drop m i) j = SMap.get d m j := by
  induction m with
  | nil => rfl
  | cons x m ih =>
    obtain ⟨k, v⟩ := x
    by_cases hk : k = i
    · subst hk
      simp [SMap.drop, SMap.get, ih, Ne.symm h]
    · simp only [SMap.drop, hk, if_false, SMap.get, ih]

theorem SMap.get_ins_same (d : α) (m : SMap α) (i : Nat) (a : α) : SMap.get d (SMap.ins m i a) i = a := by
  induction m with
  | nil => simp [SMap.ins, SMap.get]
  | cons x m ih =>
    obtain ⟨k, v⟩ := x
    by_cases h₁ : i < k
    · simp [SMap.ins, SMap.get, h₁]
    · by_cases h₂ : i = k
      · simp [SMap.ins, SMap.get, h₂]
      · have h₃ : k ≠ i := fun h => h₂ h.symm
        simp [SMap.ins, SMap.get, h₁, h₂, h₃, ih]

theorem SMap.get_ins_other (d : α) (m : SMap α) {i j : Nat} (a : α) (h : j ≠ i) :
    SMap.get d (SMap.ins m i a) j = SMap.get d m j := by
  have h' : i ≠ j := Ne.symm h
  induction m with
  | nil => simp [SMap.ins, SMap.get, h']
  | cons x m ih =>
    obtain ⟨k, v⟩ := x
    by_cases h₁ : i < k
    · simp [SMap.ins, SMap.get, h₁, h']
    · by_cases h₂ : i = k
      · subst h₂
        simp [SMap.ins, SMap.get, h']
      · simp [SMap.ins, SMap.get, h₁, h₂, ih]

/-- Reading the key that was written gives what was written. -/
@[simp] theorem SMap.get_set_same [DecidableEq α] (d : α) (m : SMap α) (i : Nat) (a : α) :
    SMap.get d (SMap.set d m i a) i = a := by
  unfold SMap.set
  split
  · rename_i h
    rw [SMap.get_drop_same, h]
  · exact SMap.get_ins_same d m i a

/-- Reading another key gives what it held. -/
theorem SMap.get_set_other [DecidableEq α] (d : α) (m : SMap α) {i j : Nat} (a : α) (h : j ≠ i) :
    SMap.get d (SMap.set d m i a) j = SMap.get d m j := by
  unfold SMap.set
  split
  · exact SMap.get_drop_other d m h
  · exact SMap.get_ins_other d m a h

/-- What holds of the default and of every value listed holds of whatever is read. -/
theorem SMap.get_all {P : α → Prop} {d : α} {m : SMap α} (h0 : P d) (h : ∀ x ∈ m, P x.2) (i : Nat) : P (SMap.get d m i) := by
  induction m with
  | nil => exact h0
  | cons x m ih =>
    obtain ⟨k, v⟩ := x
    unfold SMap.get
    split
    · exact h _ List.mem_cons_self
    · exact ih fun x hx => h x (List.mem_cons_of_mem _ hx)

end Sys2Proof.Machine
end

