-- ==== Sys2Proof/Laws/State.lean ====
section
/-!
SUPPORT. Sys2Proof/Laws/State.lean: the updates of one part of the state leave every other part as it was; one lemma per
field and update.
-/
namespace Sys2Proof.Machine

/-! ### setFold -/

@[simp] theorem State.setFold_now (s : State) (f : Nat) (x : Fold) : (s.setFold f x).now = s.now := rfl
@[simp] theorem State.setFold_hubOn (s : State) (f : Nat) (x : Fold) : (s.setFold f x).hubOn = s.hubOn := rfl
@[simp] theorem State.setFold_mem (s : State) (f : Nat) (x : Fold) : (s.setFold f x).mem = s.mem := rfl
@[simp] theorem State.setFold_ue (s : State) (f : Nat) (x : Fold) : (s.setFold f x).ue = s.ue := rfl
@[simp] theorem State.setFold_dies (s : State) (f : Nat) (x : Fold) : (s.setFold f x).dies = s.dies := rfl
@[simp] theorem State.setFold_ports (s : State) (f : Nat) (x : Fold) : (s.setFold f x).ports = s.ports := rfl
@[simp] theorem State.setFold_col (s : State) (f : Nat) (x : Fold) : (s.setFold f x).col = s.col := rfl
@[simp] theorem State.setFold_res (s : State) (f : Nat) (x : Fold) : (s.setFold f x).res = s.res := rfl
@[simp] theorem State.setFold_job (s : State) (f : Nat) (x : Fold) : (s.setFold f x).job = s.job := rfl
@[simp] theorem State.setFold_host (s : State) (f : Nat) (x : Fold) : (s.setFold f x).host = s.host := rfl
@[simp] theorem State.setFold_mbx (s : State) (f : Nat) (x : Fold) : (s.setFold f x).mbx = s.mbx := rfl
@[simp] theorem State.setFold_pwr (s : State) (f : Nat) (x : Fold) : (s.setFold f x).pwr = s.pwr := rfl
@[simp] theorem State.setFold_sec (s : State) (f : Nat) (x : Fold) : (s.setFold f x).sec = s.sec := rfl
@[simp] theorem State.setFold_dbg (s : State) (f : Nat) (x : Fold) : (s.setFold f x).dbg = s.dbg := rfl
@[simp] theorem State.setFold_cfg (s : State) (f : Nat) (x : Fold) : (s.setFold f x).cfg = s.cfg := rfl
@[simp] theorem State.setFold_free (s : State) (f : Nat) (x : Fold) : (s.setFold f x).free = s.free := rfl
@[simp] theorem State.setFold_rdata (s : State) (f : Nat) (x : Fold) : (s.setFold f x).rdata = s.rdata := rfl
@[simp] theorem State.setFold_due (s : State) (f : Nat) (x : Fold) : (s.setFold f x).due = s.due := rfl
@[simp] theorem State.setFold_pending (s : State) (f : Nat) (x : Fold) : (s.setFold f x).pending = s.pending := rfl

/-! ### updFold -/

@[simp] theorem State.updFold_now (s : State) (f : Nat) (g : Fold → Fold) : (s.updFold f g).now = s.now := rfl
@[simp] theorem State.updFold_hubOn (s : State) (f : Nat) (g : Fold → Fold) : (s.updFold f g).hubOn = s.hubOn := rfl
@[simp] theorem State.updFold_mem (s : State) (f : Nat) (g : Fold → Fold) : (s.updFold f g).mem = s.mem := rfl
@[simp] theorem State.updFold_ue (s : State) (f : Nat) (g : Fold → Fold) : (s.updFold f g).ue = s.ue := rfl
@[simp] theorem State.updFold_dies (s : State) (f : Nat) (g : Fold → Fold) : (s.updFold f g).dies = s.dies := rfl
@[simp] theorem State.updFold_ports (s : State) (f : Nat) (g : Fold → Fold) : (s.updFold f g).ports = s.ports := rfl
@[simp] theorem State.updFold_col (s : State) (f : Nat) (g : Fold → Fold) : (s.updFold f g).col = s.col := rfl
@[simp] theorem State.updFold_res (s : State) (f : Nat) (g : Fold → Fold) : (s.updFold f g).res = s.res := rfl
@[simp] theorem State.updFold_job (s : State) (f : Nat) (g : Fold → Fold) : (s.updFold f g).job = s.job := rfl
@[simp] theorem State.updFold_host (s : State) (f : Nat) (g : Fold → Fold) : (s.updFold f g).host = s.host := rfl
@[simp] theorem State.updFold_mbx (s : State) (f : Nat) (g : Fold → Fold) : (s.updFold f g).mbx = s.mbx := rfl
@[simp] theorem State.updFold_pwr (s : State) (f : Nat) (g : Fold → Fold) : (s.updFold f g).pwr = s.pwr := rfl
@[simp] theorem State.updFold_sec (s : State) (f : Nat) (g : Fold → Fold) : (s.updFold f g).sec = s.sec := rfl
@[simp] theorem State.updFold_dbg (s : State) (f : Nat) (g : Fold → Fold) : (s.updFold f g).dbg = s.dbg := rfl
@[simp] theorem State.updFold_cfg (s : State) (f : Nat) (g : Fold → Fold) : (s.updFold f g).cfg = s.cfg := rfl
@[simp] theorem State.updFold_free (s : State) (f : Nat) (g : Fold → Fold) : (s.updFold f g).free = s.free := rfl
@[simp] theorem State.updFold_rdata (s : State) (f : Nat) (g : Fold → Fold) : (s.updFold f g).rdata = s.rdata := rfl
@[simp] theorem State.updFold_due (s : State) (f : Nat) (g : Fold → Fold) : (s.updFold f g).due = s.due := rfl
@[simp] theorem State.updFold_pending (s : State) (f : Nat) (g : Fold → Fold) : (s.updFold f g).pending = s.pending := rfl

/-! ### setCore -/

@[simp] theorem State.setCore_now (s : State) (f c : Nat) (x : Core) : (s.setCore f c x).now = s.now := rfl
@[simp] theorem State.setCore_hubOn (s : State) (f c : Nat) (x : Core) : (s.setCore f c x).hubOn = s.hubOn := rfl
@[simp] theorem State.setCore_mem (s : State) (f c : Nat) (x : Core) : (s.setCore f c x).mem = s.mem := rfl
@[simp] theorem State.setCore_ue (s : State) (f c : Nat) (x : Core) : (s.setCore f c x).ue = s.ue := rfl
@[simp] theorem State.setCore_dies (s : State) (f c : Nat) (x : Core) : (s.setCore f c x).dies = s.dies := rfl
@[simp] theorem State.setCore_ports (s : State) (f c : Nat) (x : Core) : (s.setCore f c x).ports = s.ports := rfl
@[simp] theorem State.setCore_col (s : State) (f c : Nat) (x : Core) : (s.setCore f c x).col = s.col := rfl
@[simp] theorem State.setCore_res (s : State) (f c : Nat) (x : Core) : (s.setCore f c x).res = s.res := rfl
@[simp] theorem State.setCore_job (s : State) (f c : Nat) (x : Core) : (s.setCore f c x).job = s.job := rfl
@[simp] theorem State.setCore_host (s : State) (f c : Nat) (x : Core) : (s.setCore f c x).host = s.host := rfl
@[simp] theorem State.setCore_mbx (s : State) (f c : Nat) (x : Core) : (s.setCore f c x).mbx = s.mbx := rfl
@[simp] theorem State.setCore_pwr (s : State) (f c : Nat) (x : Core) : (s.setCore f c x).pwr = s.pwr := rfl
@[simp] theorem State.setCore_sec (s : State) (f c : Nat) (x : Core) : (s.setCore f c x).sec = s.sec := rfl
@[simp] theorem State.setCore_dbg (s : State) (f c : Nat) (x : Core) : (s.setCore f c x).dbg = s.dbg := rfl
@[simp] theorem State.setCore_cfg (s : State) (f c : Nat) (x : Core) : (s.setCore f c x).cfg = s.cfg := rfl
@[simp] theorem State.setCore_free (s : State) (f c : Nat) (x : Core) : (s.setCore f c x).free = s.free := rfl
@[simp] theorem State.setCore_rdata (s : State) (f c : Nat) (x : Core) : (s.setCore f c x).rdata = s.rdata := rfl
@[simp] theorem State.setCore_due (s : State) (f c : Nat) (x : Core) : (s.setCore f c x).due = s.due := rfl
@[simp] theorem State.setCore_pending (s : State) (f c : Nat) (x : Core) : (s.setCore f c x).pending = s.pending := rfl

/-! ### updCore -/

@[simp] theorem State.updCore_now (s : State) (f c : Nat) (g : Core → Core) : (s.updCore f c g).now = s.now := rfl
@[simp] theorem State.updCore_hubOn (s : State) (f c : Nat) (g : Core → Core) : (s.updCore f c g).hubOn = s.hubOn := rfl
@[simp] theorem State.updCore_mem (s : State) (f c : Nat) (g : Core → Core) : (s.updCore f c g).mem = s.mem := rfl
@[simp] theorem State.updCore_ue (s : State) (f c : Nat) (g : Core → Core) : (s.updCore f c g).ue = s.ue := rfl
@[simp] theorem State.updCore_dies (s : State) (f c : Nat) (g : Core → Core) : (s.updCore f c g).dies = s.dies := rfl
@[simp] theorem State.updCore_ports (s : State) (f c : Nat) (g : Core → Core) : (s.updCore f c g).ports = s.ports := rfl
@[simp] theorem State.updCore_col (s : State) (f c : Nat) (g : Core → Core) : (s.updCore f c g).col = s.col := rfl
@[simp] theorem State.updCore_res (s : State) (f c : Nat) (g : Core → Core) : (s.updCore f c g).res = s.res := rfl
@[simp] theorem State.updCore_job (s : State) (f c : Nat) (g : Core → Core) : (s.updCore f c g).job = s.job := rfl
@[simp] theorem State.updCore_host (s : State) (f c : Nat) (g : Core → Core) : (s.updCore f c g).host = s.host := rfl
@[simp] theorem State.updCore_mbx (s : State) (f c : Nat) (g : Core → Core) : (s.updCore f c g).mbx = s.mbx := rfl
@[simp] theorem State.updCore_pwr (s : State) (f c : Nat) (g : Core → Core) : (s.updCore f c g).pwr = s.pwr := rfl
@[simp] theorem State.updCore_sec (s : State) (f c : Nat) (g : Core → Core) : (s.updCore f c g).sec = s.sec := rfl
@[simp] theorem State.updCore_dbg (s : State) (f c : Nat) (g : Core → Core) : (s.updCore f c g).dbg = s.dbg := rfl
@[simp] theorem State.updCore_cfg (s : State) (f c : Nat) (g : Core → Core) : (s.updCore f c g).cfg = s.cfg := rfl
@[simp] theorem State.updCore_free (s : State) (f c : Nat) (g : Core → Core) : (s.updCore f c g).free = s.free := rfl
@[simp] theorem State.updCore_rdata (s : State) (f c : Nat) (g : Core → Core) : (s.updCore f c g).rdata = s.rdata := rfl
@[simp] theorem State.updCore_due (s : State) (f c : Nat) (g : Core → Core) : (s.updCore f c g).due = s.due := rfl
@[simp] theorem State.updCore_pending (s : State) (f c : Nat) (g : Core → Core) : (s.updCore f c g).pending = s.pending := rfl

/-! ### setThread -/

@[simp] theorem State.setThread_now (s : State) (f c t : Nat) (x : Thread) : (s.setThread f c t x).now = s.now := rfl
@[simp] theorem State.setThread_hubOn (s : State) (f c t : Nat) (x : Thread) : (s.setThread f c t x).hubOn = s.hubOn := rfl
@[simp] theorem State.setThread_mem (s : State) (f c t : Nat) (x : Thread) : (s.setThread f c t x).mem = s.mem := rfl
@[simp] theorem State.setThread_ue (s : State) (f c t : Nat) (x : Thread) : (s.setThread f c t x).ue = s.ue := rfl
@[simp] theorem State.setThread_dies (s : State) (f c t : Nat) (x : Thread) : (s.setThread f c t x).dies = s.dies := rfl
@[simp] theorem State.setThread_ports (s : State) (f c t : Nat) (x : Thread) : (s.setThread f c t x).ports = s.ports := rfl
@[simp] theorem State.setThread_col (s : State) (f c t : Nat) (x : Thread) : (s.setThread f c t x).col = s.col := rfl
@[simp] theorem State.setThread_res (s : State) (f c t : Nat) (x : Thread) : (s.setThread f c t x).res = s.res := rfl
@[simp] theorem State.setThread_job (s : State) (f c t : Nat) (x : Thread) : (s.setThread f c t x).job = s.job := rfl
@[simp] theorem State.setThread_host (s : State) (f c t : Nat) (x : Thread) : (s.setThread f c t x).host = s.host := rfl
@[simp] theorem State.setThread_mbx (s : State) (f c t : Nat) (x : Thread) : (s.setThread f c t x).mbx = s.mbx := rfl
@[simp] theorem State.setThread_pwr (s : State) (f c t : Nat) (x : Thread) : (s.setThread f c t x).pwr = s.pwr := rfl
@[simp] theorem State.setThread_sec (s : State) (f c t : Nat) (x : Thread) : (s.setThread f c t x).sec = s.sec := rfl
@[simp] theorem State.setThread_dbg (s : State) (f c t : Nat) (x : Thread) : (s.setThread f c t x).dbg = s.dbg := rfl
@[simp] theorem State.setThread_cfg (s : State) (f c t : Nat) (x : Thread) : (s.setThread f c t x).cfg = s.cfg := rfl
@[simp] theorem State.setThread_free (s : State) (f c t : Nat) (x : Thread) : (s.setThread f c t x).free = s.free := rfl
@[simp] theorem State.setThread_rdata (s : State) (f c t : Nat) (x : Thread) : (s.setThread f c t x).rdata = s.rdata := rfl
@[simp] theorem State.setThread_due (s : State) (f c t : Nat) (x : Thread) : (s.setThread f c t x).due = s.due := rfl
@[simp] theorem State.setThread_pending (s : State) (f c t : Nat) (x : Thread) : (s.setThread f c t x).pending = s.pending := rfl

/-! ### foldRegs -/

@[simp] theorem State.foldRegs_now (s : State) (f : Nat) (g : FoldRegs → FoldRegs) : (s.foldRegs f g).now = s.now := rfl
@[simp] theorem State.foldRegs_hubOn (s : State) (f : Nat) (g : FoldRegs → FoldRegs) : (s.foldRegs f g).hubOn = s.hubOn := rfl
@[simp] theorem State.foldRegs_mem (s : State) (f : Nat) (g : FoldRegs → FoldRegs) : (s.foldRegs f g).mem = s.mem := rfl
@[simp] theorem State.foldRegs_ue (s : State) (f : Nat) (g : FoldRegs → FoldRegs) : (s.foldRegs f g).ue = s.ue := rfl
@[simp] theorem State.foldRegs_dies (s : State) (f : Nat) (g : FoldRegs → FoldRegs) : (s.foldRegs f g).dies = s.dies := rfl
@[simp] theorem State.foldRegs_ports (s : State) (f : Nat) (g : FoldRegs → FoldRegs) : (s.foldRegs f g).ports = s.ports := rfl
@[simp] theorem State.foldRegs_col (s : State) (f : Nat) (g : FoldRegs → FoldRegs) : (s.foldRegs f g).col = s.col := rfl
@[simp] theorem State.foldRegs_res (s : State) (f : Nat) (g : FoldRegs → FoldRegs) : (s.foldRegs f g).res = s.res := rfl
@[simp] theorem State.foldRegs_job (s : State) (f : Nat) (g : FoldRegs → FoldRegs) : (s.foldRegs f g).job = s.job := rfl
@[simp] theorem State.foldRegs_host (s : State) (f : Nat) (g : FoldRegs → FoldRegs) : (s.foldRegs f g).host = s.host := rfl
@[simp] theorem State.foldRegs_mbx (s : State) (f : Nat) (g : FoldRegs → FoldRegs) : (s.foldRegs f g).mbx = s.mbx := rfl
@[simp] theorem State.foldRegs_pwr (s : State) (f : Nat) (g : FoldRegs → FoldRegs) : (s.foldRegs f g).pwr = s.pwr := rfl
@[simp] theorem State.foldRegs_sec (s : State) (f : Nat) (g : FoldRegs → FoldRegs) : (s.foldRegs f g).sec = s.sec := rfl
@[simp] theorem State.foldRegs_dbg (s : State) (f : Nat) (g : FoldRegs → FoldRegs) : (s.foldRegs f g).dbg = s.dbg := rfl
@[simp] theorem State.foldRegs_cfg (s : State) (f : Nat) (g : FoldRegs → FoldRegs) : (s.foldRegs f g).cfg = s.cfg := rfl
@[simp] theorem State.foldRegs_free (s : State) (f : Nat) (g : FoldRegs → FoldRegs) : (s.foldRegs f g).free = s.free := rfl
@[simp] theorem State.foldRegs_rdata (s : State) (f : Nat) (g : FoldRegs → FoldRegs) : (s.foldRegs f g).rdata = s.rdata := rfl
@[simp] theorem State.foldRegs_due (s : State) (f : Nat) (g : FoldRegs → FoldRegs) : (s.foldRegs f g).due = s.due := rfl
@[simp] theorem State.foldRegs_pending (s : State) (f : Nat) (g : FoldRegs → FoldRegs) : (s.foldRegs f g).pending = s.pending := rfl

/-! ### coreRegs -/

@[simp] theorem State.coreRegs_now (s : State) (f c : Nat) (g : CoreRegs → CoreRegs) : (s.coreRegs f c g).now = s.now := rfl
@[simp] theorem State.coreRegs_hubOn (s : State) (f c : Nat) (g : CoreRegs → CoreRegs) : (s.coreRegs f c g).hubOn = s.hubOn := rfl
@[simp] theorem State.coreRegs_mem (s : State) (f c : Nat) (g : CoreRegs → CoreRegs) : (s.coreRegs f c g).mem = s.mem := rfl
@[simp] theorem State.coreRegs_ue (s : State) (f c : Nat) (g : CoreRegs → CoreRegs) : (s.coreRegs f c g).ue = s.ue := rfl
@[simp] theorem State.coreRegs_dies (s : State) (f c : Nat) (g : CoreRegs → CoreRegs) : (s.coreRegs f c g).dies = s.dies := rfl
@[simp] theorem State.coreRegs_ports (s : State) (f c : Nat) (g : CoreRegs → CoreRegs) : (s.coreRegs f c g).ports = s.ports := rfl
@[simp] theorem State.coreRegs_col (s : State) (f c : Nat) (g : CoreRegs → CoreRegs) : (s.coreRegs f c g).col = s.col := rfl
@[simp] theorem State.coreRegs_res (s : State) (f c : Nat) (g : CoreRegs → CoreRegs) : (s.coreRegs f c g).res = s.res := rfl
@[simp] theorem State.coreRegs_job (s : State) (f c : Nat) (g : CoreRegs → CoreRegs) : (s.coreRegs f c g).job = s.job := rfl
@[simp] theorem State.coreRegs_host (s : State) (f c : Nat) (g : CoreRegs → CoreRegs) : (s.coreRegs f c g).host = s.host := rfl
@[simp] theorem State.coreRegs_mbx (s : State) (f c : Nat) (g : CoreRegs → CoreRegs) : (s.coreRegs f c g).mbx = s.mbx := rfl
@[simp] theorem State.coreRegs_pwr (s : State) (f c : Nat) (g : CoreRegs → CoreRegs) : (s.coreRegs f c g).pwr = s.pwr := rfl
@[simp] theorem State.coreRegs_sec (s : State) (f c : Nat) (g : CoreRegs → CoreRegs) : (s.coreRegs f c g).sec = s.sec := rfl
@[simp] theorem State.coreRegs_dbg (s : State) (f c : Nat) (g : CoreRegs → CoreRegs) : (s.coreRegs f c g).dbg = s.dbg := rfl
@[simp] theorem State.coreRegs_cfg (s : State) (f c : Nat) (g : CoreRegs → CoreRegs) : (s.coreRegs f c g).cfg = s.cfg := rfl
@[simp] theorem State.coreRegs_free (s : State) (f c : Nat) (g : CoreRegs → CoreRegs) : (s.coreRegs f c g).free = s.free := rfl
@[simp] theorem State.coreRegs_rdata (s : State) (f c : Nat) (g : CoreRegs → CoreRegs) : (s.coreRegs f c g).rdata = s.rdata := rfl
@[simp] theorem State.coreRegs_due (s : State) (f c : Nat) (g : CoreRegs → CoreRegs) : (s.coreRegs f c g).due = s.due := rfl
@[simp] theorem State.coreRegs_pending (s : State) (f c : Nat) (g : CoreRegs → CoreRegs) : (s.coreRegs f c g).pending = s.pending := rfl

/-! ### putReg -/

@[simp] theorem State.putReg_now (s : State) (f c t i : Nat) (w : W64) : (s.putReg f c t i w).now = s.now := rfl
@[simp] theorem State.putReg_hubOn (s : State) (f c t i : Nat) (w : W64) : (s.putReg f c t i w).hubOn = s.hubOn := rfl
@[simp] theorem State.putReg_mem (s : State) (f c t i : Nat) (w : W64) : (s.putReg f c t i w).mem = s.mem := rfl
@[simp] theorem State.putReg_ue (s : State) (f c t i : Nat) (w : W64) : (s.putReg f c t i w).ue = s.ue := rfl
@[simp] theorem State.putReg_dies (s : State) (f c t i : Nat) (w : W64) : (s.putReg f c t i w).dies = s.dies := rfl
@[simp] theorem State.putReg_ports (s : State) (f c t i : Nat) (w : W64) : (s.putReg f c t i w).ports = s.ports := rfl
@[simp] theorem State.putReg_col (s : State) (f c t i : Nat) (w : W64) : (s.putReg f c t i w).col = s.col := rfl
@[simp] theorem State.putReg_res (s : State) (f c t i : Nat) (w : W64) : (s.putReg f c t i w).res = s.res := rfl
@[simp] theorem State.putReg_job (s : State) (f c t i : Nat) (w : W64) : (s.putReg f c t i w).job = s.job := rfl
@[simp] theorem State.putReg_host (s : State) (f c t i : Nat) (w : W64) : (s.putReg f c t i w).host = s.host := rfl
@[simp] theorem State.putReg_mbx (s : State) (f c t i : Nat) (w : W64) : (s.putReg f c t i w).mbx = s.mbx := rfl
@[simp] theorem State.putReg_pwr (s : State) (f c t i : Nat) (w : W64) : (s.putReg f c t i w).pwr = s.pwr := rfl
@[simp] theorem State.putReg_sec (s : State) (f c t i : Nat) (w : W64) : (s.putReg f c t i w).sec = s.sec := rfl
@[simp] theorem State.putReg_dbg (s : State) (f c t i : Nat) (w : W64) : (s.putReg f c t i w).dbg = s.dbg := rfl
@[simp] theorem State.putReg_cfg (s : State) (f c t i : Nat) (w : W64) : (s.putReg f c t i w).cfg = s.cfg := rfl
@[simp] theorem State.putReg_free (s : State) (f c t i : Nat) (w : W64) : (s.putReg f c t i w).free = s.free := rfl
@[simp] theorem State.putReg_rdata (s : State) (f c t i : Nat) (w : W64) : (s.putReg f c t i w).rdata = s.rdata := rfl
@[simp] theorem State.putReg_due (s : State) (f c t i : Nat) (w : W64) : (s.putReg f c t i w).due = s.due := rfl
@[simp] theorem State.putReg_pending (s : State) (f c t i : Nat) (w : W64) : (s.putReg f c t i w).pending = s.pending := rfl

/-! ### setSlot -/

@[simp] theorem State.setSlot_now (s : State) (f n : Nat) (e : EvSlot) : (s.setSlot f n e).now = s.now := rfl
@[simp] theorem State.setSlot_hubOn (s : State) (f n : Nat) (e : EvSlot) : (s.setSlot f n e).hubOn = s.hubOn := rfl
@[simp] theorem State.setSlot_mem (s : State) (f n : Nat) (e : EvSlot) : (s.setSlot f n e).mem = s.mem := rfl
@[simp] theorem State.setSlot_ue (s : State) (f n : Nat) (e : EvSlot) : (s.setSlot f n e).ue = s.ue := rfl
@[simp] theorem State.setSlot_dies (s : State) (f n : Nat) (e : EvSlot) : (s.setSlot f n e).dies = s.dies := rfl
@[simp] theorem State.setSlot_ports (s : State) (f n : Nat) (e : EvSlot) : (s.setSlot f n e).ports = s.ports := rfl
@[simp] theorem State.setSlot_col (s : State) (f n : Nat) (e : EvSlot) : (s.setSlot f n e).col = s.col := rfl
@[simp] theorem State.setSlot_res (s : State) (f n : Nat) (e : EvSlot) : (s.setSlot f n e).res = s.res := rfl
@[simp] theorem State.setSlot_job (s : State) (f n : Nat) (e : EvSlot) : (s.setSlot f n e).job = s.job := rfl
@[simp] theorem State.setSlot_host (s : State) (f n : Nat) (e : EvSlot) : (s.setSlot f n e).host = s.host := rfl
@[simp] theorem State.setSlot_mbx (s : State) (f n : Nat) (e : EvSlot) : (s.setSlot f n e).mbx = s.mbx := rfl
@[simp] theorem State.setSlot_pwr (s : State) (f n : Nat) (e : EvSlot) : (s.setSlot f n e).pwr = s.pwr := rfl
@[simp] theorem State.setSlot_sec (s : State) (f n : Nat) (e : EvSlot) : (s.setSlot f n e).sec = s.sec := rfl
@[simp] theorem State.setSlot_dbg (s : State) (f n : Nat) (e : EvSlot) : (s.setSlot f n e).dbg = s.dbg := rfl
@[simp] theorem State.setSlot_cfg (s : State) (f n : Nat) (e : EvSlot) : (s.setSlot f n e).cfg = s.cfg := rfl
@[simp] theorem State.setSlot_free (s : State) (f n : Nat) (e : EvSlot) : (s.setSlot f n e).free = s.free := rfl
@[simp] theorem State.setSlot_rdata (s : State) (f n : Nat) (e : EvSlot) : (s.setSlot f n e).rdata = s.rdata := rfl
@[simp] theorem State.setSlot_due (s : State) (f n : Nat) (e : EvSlot) : (s.setSlot f n e).due = s.due := rfl
@[simp] theorem State.setSlot_pending (s : State) (f n : Nat) (e : EvSlot) : (s.setSlot f n e).pending = s.pending := rfl

/-! ### setDie -/

@[simp] theorem State.setDie_now (s : State) (d : Nat) (x : Die) : (s.setDie d x).now = s.now := rfl
@[simp] theorem State.setDie_hubOn (s : State) (d : Nat) (x : Die) : (s.setDie d x).hubOn = s.hubOn := rfl
@[simp] theorem State.setDie_mem (s : State) (d : Nat) (x : Die) : (s.setDie d x).mem = s.mem := rfl
@[simp] theorem State.setDie_ue (s : State) (d : Nat) (x : Die) : (s.setDie d x).ue = s.ue := rfl
@[simp] theorem State.setDie_folds (s : State) (d : Nat) (x : Die) : (s.setDie d x).folds = s.folds := rfl
@[simp] theorem State.setDie_ports (s : State) (d : Nat) (x : Die) : (s.setDie d x).ports = s.ports := rfl
@[simp] theorem State.setDie_col (s : State) (d : Nat) (x : Die) : (s.setDie d x).col = s.col := rfl
@[simp] theorem State.setDie_res (s : State) (d : Nat) (x : Die) : (s.setDie d x).res = s.res := rfl
@[simp] theorem State.setDie_job (s : State) (d : Nat) (x : Die) : (s.setDie d x).job = s.job := rfl
@[simp] theorem State.setDie_host (s : State) (d : Nat) (x : Die) : (s.setDie d x).host = s.host := rfl
@[simp] theorem State.setDie_mbx (s : State) (d : Nat) (x : Die) : (s.setDie d x).mbx = s.mbx := rfl
@[simp] theorem State.setDie_pwr (s : State) (d : Nat) (x : Die) : (s.setDie d x).pwr = s.pwr := rfl
@[simp] theorem State.setDie_sec (s : State) (d : Nat) (x : Die) : (s.setDie d x).sec = s.sec := rfl
@[simp] theorem State.setDie_dbg (s : State) (d : Nat) (x : Die) : (s.setDie d x).dbg = s.dbg := rfl
@[simp] theorem State.setDie_cfg (s : State) (d : Nat) (x : Die) : (s.setDie d x).cfg = s.cfg := rfl
@[simp] theorem State.setDie_free (s : State) (d : Nat) (x : Die) : (s.setDie d x).free = s.free := rfl
@[simp] theorem State.setDie_rdata (s : State) (d : Nat) (x : Die) : (s.setDie d x).rdata = s.rdata := rfl
@[simp] theorem State.setDie_due (s : State) (d : Nat) (x : Die) : (s.setDie d x).due = s.due := rfl
@[simp] theorem State.setDie_pending (s : State) (d : Nat) (x : Die) : (s.setDie d x).pending = s.pending := rfl

/-! ### updDie -/

@[simp] theorem State.updDie_now (s : State) (d : Nat) (g : Die → Die) : (s.updDie d g).now = s.now := rfl
@[simp] theorem State.updDie_hubOn (s : State) (d : Nat) (g : Die → Die) : (s.updDie d g).hubOn = s.hubOn := rfl
@[simp] theorem State.updDie_mem (s : State) (d : Nat) (g : Die → Die) : (s.updDie d g).mem = s.mem := rfl
@[simp] theorem State.updDie_ue (s : State) (d : Nat) (g : Die → Die) : (s.updDie d g).ue = s.ue := rfl
@[simp] theorem State.updDie_folds (s : State) (d : Nat) (g : Die → Die) : (s.updDie d g).folds = s.folds := rfl
@[simp] theorem State.updDie_ports (s : State) (d : Nat) (g : Die → Die) : (s.updDie d g).ports = s.ports := rfl
@[simp] theorem State.updDie_col (s : State) (d : Nat) (g : Die → Die) : (s.updDie d g).col = s.col := rfl
@[simp] theorem State.updDie_res (s : State) (d : Nat) (g : Die → Die) : (s.updDie d g).res = s.res := rfl
@[simp] theorem State.updDie_job (s : State) (d : Nat) (g : Die → Die) : (s.updDie d g).job = s.job := rfl
@[simp] theorem State.updDie_host (s : State) (d : Nat) (g : Die → Die) : (s.updDie d g).host = s.host := rfl
@[simp] theorem State.updDie_mbx (s : State) (d : Nat) (g : Die → Die) : (s.updDie d g).mbx = s.mbx := rfl
@[simp] theorem State.updDie_pwr (s : State) (d : Nat) (g : Die → Die) : (s.updDie d g).pwr = s.pwr := rfl
@[simp] theorem State.updDie_sec (s : State) (d : Nat) (g : Die → Die) : (s.updDie d g).sec = s.sec := rfl
@[simp] theorem State.updDie_dbg (s : State) (d : Nat) (g : Die → Die) : (s.updDie d g).dbg = s.dbg := rfl
@[simp] theorem State.updDie_cfg (s : State) (d : Nat) (g : Die → Die) : (s.updDie d g).cfg = s.cfg := rfl
@[simp] theorem State.updDie_free (s : State) (d : Nat) (g : Die → Die) : (s.updDie d g).free = s.free := rfl
@[simp] theorem State.updDie_rdata (s : State) (d : Nat) (g : Die → Die) : (s.updDie d g).rdata = s.rdata := rfl
@[simp] theorem State.updDie_due (s : State) (d : Nat) (g : Die → Die) : (s.updDie d g).due = s.due := rfl
@[simp] theorem State.updDie_pending (s : State) (d : Nat) (g : Die → Die) : (s.updDie d g).pending = s.pending := rfl

/-! ### setPort -/

@[simp] theorem State.setPort_now (s : State) (p : Nat) (x : Port) : (s.setPort p x).now = s.now := rfl
@[simp] theorem State.setPort_hubOn (s : State) (p : Nat) (x : Port) : (s.setPort p x).hubOn = s.hubOn := rfl
@[simp] theorem State.setPort_mem (s : State) (p : Nat) (x : Port) : (s.setPort p x).mem = s.mem := rfl
@[simp] theorem State.setPort_ue (s : State) (p : Nat) (x : Port) : (s.setPort p x).ue = s.ue := rfl
@[simp] theorem State.setPort_folds (s : State) (p : Nat) (x : Port) : (s.setPort p x).folds = s.folds := rfl
@[simp] theorem State.setPort_dies (s : State) (p : Nat) (x : Port) : (s.setPort p x).dies = s.dies := rfl
@[simp] theorem State.setPort_col (s : State) (p : Nat) (x : Port) : (s.setPort p x).col = s.col := rfl
@[simp] theorem State.setPort_res (s : State) (p : Nat) (x : Port) : (s.setPort p x).res = s.res := rfl
@[simp] theorem State.setPort_job (s : State) (p : Nat) (x : Port) : (s.setPort p x).job = s.job := rfl
@[simp] theorem State.setPort_host (s : State) (p : Nat) (x : Port) : (s.setPort p x).host = s.host := rfl
@[simp] theorem State.setPort_mbx (s : State) (p : Nat) (x : Port) : (s.setPort p x).mbx = s.mbx := rfl
@[simp] theorem State.setPort_pwr (s : State) (p : Nat) (x : Port) : (s.setPort p x).pwr = s.pwr := rfl
@[simp] theorem State.setPort_sec (s : State) (p : Nat) (x : Port) : (s.setPort p x).sec = s.sec := rfl
@[simp] theorem State.setPort_dbg (s : State) (p : Nat) (x : Port) : (s.setPort p x).dbg = s.dbg := rfl
@[simp] theorem State.setPort_cfg (s : State) (p : Nat) (x : Port) : (s.setPort p x).cfg = s.cfg := rfl
@[simp] theorem State.setPort_free (s : State) (p : Nat) (x : Port) : (s.setPort p x).free = s.free := rfl
@[simp] theorem State.setPort_rdata (s : State) (p : Nat) (x : Port) : (s.setPort p x).rdata = s.rdata := rfl
@[simp] theorem State.setPort_due (s : State) (p : Nat) (x : Port) : (s.setPort p x).due = s.due := rfl
@[simp] theorem State.setPort_pending (s : State) (p : Nat) (x : Port) : (s.setPort p x).pending = s.pending := rfl

/-! ### updPort -/

@[simp] theorem State.updPort_now (s : State) (p : Nat) (g : Port → Port) : (s.updPort p g).now = s.now := rfl
@[simp] theorem State.updPort_hubOn (s : State) (p : Nat) (g : Port → Port) : (s.updPort p g).hubOn = s.hubOn := rfl
@[simp] theorem State.updPort_mem (s : State) (p : Nat) (g : Port → Port) : (s.updPort p g).mem = s.mem := rfl
@[simp] theorem State.updPort_ue (s : State) (p : Nat) (g : Port → Port) : (s.updPort p g).ue = s.ue := rfl
@[simp] theorem State.updPort_folds (s : State) (p : Nat) (g : Port → Port) : (s.updPort p g).folds = s.folds := rfl
@[simp] theorem State.updPort_dies (s : State) (p : Nat) (g : Port → Port) : (s.updPort p g).dies = s.dies := rfl
@[simp] theorem State.updPort_col (s : State) (p : Nat) (g : Port → Port) : (s.updPort p g).col = s.col := rfl
@[simp] theorem State.updPort_res (s : State) (p : Nat) (g : Port → Port) : (s.updPort p g).res = s.res := rfl
@[simp] theorem State.updPort_job (s : State) (p : Nat) (g : Port → Port) : (s.updPort p g).job = s.job := rfl
@[simp] theorem State.updPort_host (s : State) (p : Nat) (g : Port → Port) : (s.updPort p g).host = s.host := rfl
@[simp] theorem State.updPort_mbx (s : State) (p : Nat) (g : Port → Port) : (s.updPort p g).mbx = s.mbx := rfl
@[simp] theorem State.updPort_pwr (s : State) (p : Nat) (g : Port → Port) : (s.updPort p g).pwr = s.pwr := rfl
@[simp] theorem State.updPort_sec (s : State) (p : Nat) (g : Port → Port) : (s.updPort p g).sec = s.sec := rfl
@[simp] theorem State.updPort_dbg (s : State) (p : Nat) (g : Port → Port) : (s.updPort p g).dbg = s.dbg := rfl
@[simp] theorem State.updPort_cfg (s : State) (p : Nat) (g : Port → Port) : (s.updPort p g).cfg = s.cfg := rfl
@[simp] theorem State.updPort_free (s : State) (p : Nat) (g : Port → Port) : (s.updPort p g).free = s.free := rfl
@[simp] theorem State.updPort_rdata (s : State) (p : Nat) (g : Port → Port) : (s.updPort p g).rdata = s.rdata := rfl
@[simp] theorem State.updPort_due (s : State) (p : Nat) (g : Port → Port) : (s.updPort p g).due = s.due := rfl
@[simp] theorem State.updPort_pending (s : State) (p : Nat) (g : Port → Port) : (s.updPort p g).pending = s.pending := rfl

/-! ### updHost -/

@[simp] theorem State.updHost_now (s : State) (g : HostIf → HostIf) : (s.updHost g).now = s.now := rfl
@[simp] theorem State.updHost_hubOn (s : State) (g : HostIf → HostIf) : (s.updHost g).hubOn = s.hubOn := rfl
@[simp] theorem State.updHost_mem (s : State) (g : HostIf → HostIf) : (s.updHost g).mem = s.mem := rfl
@[simp] theorem State.updHost_ue (s : State) (g : HostIf → HostIf) : (s.updHost g).ue = s.ue := rfl
@[simp] theorem State.updHost_folds (s : State) (g : HostIf → HostIf) : (s.updHost g).folds = s.folds := rfl
@[simp] theorem State.updHost_dies (s : State) (g : HostIf → HostIf) : (s.updHost g).dies = s.dies := rfl
@[simp] theorem State.updHost_ports (s : State) (g : HostIf → HostIf) : (s.updHost g).ports = s.ports := rfl
@[simp] theorem State.updHost_col (s : State) (g : HostIf → HostIf) : (s.updHost g).col = s.col := rfl
@[simp] theorem State.updHost_res (s : State) (g : HostIf → HostIf) : (s.updHost g).res = s.res := rfl
@[simp] theorem State.updHost_job (s : State) (g : HostIf → HostIf) : (s.updHost g).job = s.job := rfl
@[simp] theorem State.updHost_mbx (s : State) (g : HostIf → HostIf) : (s.updHost g).mbx = s.mbx := rfl
@[simp] theorem State.updHost_pwr (s : State) (g : HostIf → HostIf) : (s.updHost g).pwr = s.pwr := rfl
@[simp] theorem State.updHost_sec (s : State) (g : HostIf → HostIf) : (s.updHost g).sec = s.sec := rfl
@[simp] theorem State.updHost_dbg (s : State) (g : HostIf → HostIf) : (s.updHost g).dbg = s.dbg := rfl
@[simp] theorem State.updHost_cfg (s : State) (g : HostIf → HostIf) : (s.updHost g).cfg = s.cfg := rfl
@[simp] theorem State.updHost_free (s : State) (g : HostIf → HostIf) : (s.updHost g).free = s.free := rfl
@[simp] theorem State.updHost_rdata (s : State) (g : HostIf → HostIf) : (s.updHost g).rdata = s.rdata := rfl
@[simp] theorem State.updHost_due (s : State) (g : HostIf → HostIf) : (s.updHost g).due = s.due := rfl
@[simp] theorem State.updHost_pending (s : State) (g : HostIf → HostIf) : (s.updHost g).pending = s.pending := rfl

/-! ### hostRegs -/

@[simp] theorem State.hostRegs_now (s : State) (g : HostRegs → HostRegs) : (s.hostRegs g).now = s.now := rfl
@[simp] theorem State.hostRegs_hubOn (s : State) (g : HostRegs → HostRegs) : (s.hostRegs g).hubOn = s.hubOn := rfl
@[simp] theorem State.hostRegs_mem (s : State) (g : HostRegs → HostRegs) : (s.hostRegs g).mem = s.mem := rfl
@[simp] theorem State.hostRegs_ue (s : State) (g : HostRegs → HostRegs) : (s.hostRegs g).ue = s.ue := rfl
@[simp] theorem State.hostRegs_folds (s : State) (g : HostRegs → HostRegs) : (s.hostRegs g).folds = s.folds := rfl
@[simp] theorem State.hostRegs_dies (s : State) (g : HostRegs → HostRegs) : (s.hostRegs g).dies = s.dies := rfl
@[simp] theorem State.hostRegs_ports (s : State) (g : HostRegs → HostRegs) : (s.hostRegs g).ports = s.ports := rfl
@[simp] theorem State.hostRegs_col (s : State) (g : HostRegs → HostRegs) : (s.hostRegs g).col = s.col := rfl
@[simp] theorem State.hostRegs_res (s : State) (g : HostRegs → HostRegs) : (s.hostRegs g).res = s.res := rfl
@[simp] theorem State.hostRegs_job (s : State) (g : HostRegs → HostRegs) : (s.hostRegs g).job = s.job := rfl
@[simp] theorem State.hostRegs_mbx (s : State) (g : HostRegs → HostRegs) : (s.hostRegs g).mbx = s.mbx := rfl
@[simp] theorem State.hostRegs_pwr (s : State) (g : HostRegs → HostRegs) : (s.hostRegs g).pwr = s.pwr := rfl
@[simp] theorem State.hostRegs_sec (s : State) (g : HostRegs → HostRegs) : (s.hostRegs g).sec = s.sec := rfl
@[simp] theorem State.hostRegs_dbg (s : State) (g : HostRegs → HostRegs) : (s.hostRegs g).dbg = s.dbg := rfl
@[simp] theorem State.hostRegs_cfg (s : State) (g : HostRegs → HostRegs) : (s.hostRegs g).cfg = s.cfg := rfl
@[simp] theorem State.hostRegs_free (s : State) (g : HostRegs → HostRegs) : (s.hostRegs g).free = s.free := rfl
@[simp] theorem State.hostRegs_rdata (s : State) (g : HostRegs → HostRegs) : (s.hostRegs g).rdata = s.rdata := rfl
@[simp] theorem State.hostRegs_due (s : State) (g : HostRegs → HostRegs) : (s.hostRegs g).due = s.due := rfl
@[simp] theorem State.hostRegs_pending (s : State) (g : HostRegs → HostRegs) : (s.hostRegs g).pending = s.pending := rfl

/-! ### updPwr -/

@[simp] theorem State.updPwr_now (s : State) (g : Pwr → Pwr) : (s.updPwr g).now = s.now := rfl
@[simp] theorem State.updPwr_hubOn (s : State) (g : Pwr → Pwr) : (s.updPwr g).hubOn = s.hubOn := rfl
@[simp] theorem State.updPwr_mem (s : State) (g : Pwr → Pwr) : (s.updPwr g).mem = s.mem := rfl
@[simp] theorem State.updPwr_ue (s : State) (g : Pwr → Pwr) : (s.updPwr g).ue = s.ue := rfl
@[simp] theorem State.updPwr_folds (s : State) (g : Pwr → Pwr) : (s.updPwr g).folds = s.folds := rfl
@[simp] theorem State.updPwr_dies (s : State) (g : Pwr → Pwr) : (s.updPwr g).dies = s.dies := rfl
@[simp] theorem State.updPwr_ports (s : State) (g : Pwr → Pwr) : (s.updPwr g).ports = s.ports := rfl
@[simp] theorem State.updPwr_col (s : State) (g : Pwr → Pwr) : (s.updPwr g).col = s.col := rfl
@[simp] theorem State.updPwr_res (s : State) (g : Pwr → Pwr) : (s.updPwr g).res = s.res := rfl
@[simp] theorem State.updPwr_job (s : State) (g : Pwr → Pwr) : (s.updPwr g).job = s.job := rfl
@[simp] theorem State.updPwr_host (s : State) (g : Pwr → Pwr) : (s.updPwr g).host = s.host := rfl
@[simp] theorem State.updPwr_mbx (s : State) (g : Pwr → Pwr) : (s.updPwr g).mbx = s.mbx := rfl
@[simp] theorem State.updPwr_sec (s : State) (g : Pwr → Pwr) : (s.updPwr g).sec = s.sec := rfl
@[simp] theorem State.updPwr_dbg (s : State) (g : Pwr → Pwr) : (s.updPwr g).dbg = s.dbg := rfl
@[simp] theorem State.updPwr_cfg (s : State) (g : Pwr → Pwr) : (s.updPwr g).cfg = s.cfg := rfl
@[simp] theorem State.updPwr_free (s : State) (g : Pwr → Pwr) : (s.updPwr g).free = s.free := rfl
@[simp] theorem State.updPwr_rdata (s : State) (g : Pwr → Pwr) : (s.updPwr g).rdata = s.rdata := rfl
@[simp] theorem State.updPwr_due (s : State) (g : Pwr → Pwr) : (s.updPwr g).due = s.due := rfl
@[simp] theorem State.updPwr_pending (s : State) (g : Pwr → Pwr) : (s.updPwr g).pending = s.pending := rfl

/-! ### updSec -/

@[simp] theorem State.updSec_now (s : State) (g : Sec → Sec) : (s.updSec g).now = s.now := rfl
@[simp] theorem State.updSec_hubOn (s : State) (g : Sec → Sec) : (s.updSec g).hubOn = s.hubOn := rfl
@[simp] theorem State.updSec_mem (s : State) (g : Sec → Sec) : (s.updSec g).mem = s.mem := rfl
@[simp] theorem State.updSec_ue (s : State) (g : Sec → Sec) : (s.updSec g).ue = s.ue := rfl
@[simp] theorem State.updSec_folds (s : State) (g : Sec → Sec) : (s.updSec g).folds = s.folds := rfl
@[simp] theorem State.updSec_dies (s : State) (g : Sec → Sec) : (s.updSec g).dies = s.dies := rfl
@[simp] theorem State.updSec_ports (s : State) (g : Sec → Sec) : (s.updSec g).ports = s.ports := rfl
@[simp] theorem State.updSec_col (s : State) (g : Sec → Sec) : (s.updSec g).col = s.col := rfl
@[simp] theorem State.updSec_res (s : State) (g : Sec → Sec) : (s.updSec g).res = s.res := rfl
@[simp] theorem State.updSec_job (s : State) (g : Sec → Sec) : (s.updSec g).job = s.job := rfl
@[simp] theorem State.updSec_host (s : State) (g : Sec → Sec) : (s.updSec g).host = s.host := rfl
@[simp] theorem State.updSec_mbx (s : State) (g : Sec → Sec) : (s.updSec g).mbx = s.mbx := rfl
@[simp] theorem State.updSec_pwr (s : State) (g : Sec → Sec) : (s.updSec g).pwr = s.pwr := rfl
@[simp] theorem State.updSec_dbg (s : State) (g : Sec → Sec) : (s.updSec g).dbg = s.dbg := rfl
@[simp] theorem State.updSec_cfg (s : State) (g : Sec → Sec) : (s.updSec g).cfg = s.cfg := rfl
@[simp] theorem State.updSec_free (s : State) (g : Sec → Sec) : (s.updSec g).free = s.free := rfl
@[simp] theorem State.updSec_rdata (s : State) (g : Sec → Sec) : (s.updSec g).rdata = s.rdata := rfl
@[simp] theorem State.updSec_due (s : State) (g : Sec → Sec) : (s.updSec g).due = s.due := rfl
@[simp] theorem State.updSec_pending (s : State) (g : Sec → Sec) : (s.updSec g).pending = s.pending := rfl

/-! ### updCfg -/

@[simp] theorem State.updCfg_now (s : State) (g : Cfg → Cfg) : (s.updCfg g).now = s.now := rfl
@[simp] theorem State.updCfg_hubOn (s : State) (g : Cfg → Cfg) : (s.updCfg g).hubOn = s.hubOn := rfl
@[simp] theorem State.updCfg_mem (s : State) (g : Cfg → Cfg) : (s.updCfg g).mem = s.mem := rfl
@[simp] theorem State.updCfg_ue (s : State) (g : Cfg → Cfg) : (s.updCfg g).ue = s.ue := rfl
@[simp] theorem State.updCfg_folds (s : State) (g : Cfg → Cfg) : (s.updCfg g).folds = s.folds := rfl
@[simp] theorem State.updCfg_dies (s : State) (g : Cfg → Cfg) : (s.updCfg g).dies = s.dies := rfl
@[simp] theorem State.updCfg_ports (s : State) (g : Cfg → Cfg) : (s.updCfg g).ports = s.ports := rfl
@[simp] theorem State.updCfg_col (s : State) (g : Cfg → Cfg) : (s.updCfg g).col = s.col := rfl
@[simp] theorem State.updCfg_res (s : State) (g : Cfg → Cfg) : (s.updCfg g).res = s.res := rfl
@[simp] theorem State.updCfg_job (s : State) (g : Cfg → Cfg) : (s.updCfg g).job = s.job := rfl
@[simp] theorem State.updCfg_host (s : State) (g : Cfg → Cfg) : (s.updCfg g).host = s.host := rfl
@[simp] theorem State.updCfg_mbx (s : State) (g : Cfg → Cfg) : (s.updCfg g).mbx = s.mbx := rfl
@[simp] theorem State.updCfg_pwr (s : State) (g : Cfg → Cfg) : (s.updCfg g).pwr = s.pwr := rfl
@[simp] theorem State.updCfg_sec (s : State) (g : Cfg → Cfg) : (s.updCfg g).sec = s.sec := rfl
@[simp] theorem State.updCfg_dbg (s : State) (g : Cfg → Cfg) : (s.updCfg g).dbg = s.dbg := rfl
@[simp] theorem State.updCfg_free (s : State) (g : Cfg → Cfg) : (s.updCfg g).free = s.free := rfl
@[simp] theorem State.updCfg_rdata (s : State) (g : Cfg → Cfg) : (s.updCfg g).rdata = s.rdata := rfl
@[simp] theorem State.updCfg_due (s : State) (g : Cfg → Cfg) : (s.updCfg g).due = s.due := rfl
@[simp] theorem State.updCfg_pending (s : State) (g : Cfg → Cfg) : (s.updCfg g).pending = s.pending := rfl

/-! ### answer -/

@[simp] theorem State.answer_now (s : State) (bs : List Byte) : (s.answer bs).now = s.now := rfl
@[simp] theorem State.answer_hubOn (s : State) (bs : List Byte) : (s.answer bs).hubOn = s.hubOn := rfl
@[simp] theorem State.answer_mem (s : State) (bs : List Byte) : (s.answer bs).mem = s.mem := rfl
@[simp] theorem State.answer_ue (s : State) (bs : List Byte) : (s.answer bs).ue = s.ue := rfl
@[simp] theorem State.answer_folds (s : State) (bs : List Byte) : (s.answer bs).folds = s.folds := rfl
@[simp] theorem State.answer_dies (s : State) (bs : List Byte) : (s.answer bs).dies = s.dies := rfl
@[simp] theorem State.answer_ports (s : State) (bs : List Byte) : (s.answer bs).ports = s.ports := rfl
@[simp] theorem State.answer_col (s : State) (bs : List Byte) : (s.answer bs).col = s.col := rfl
@[simp] theorem State.answer_res (s : State) (bs : List Byte) : (s.answer bs).res = s.res := rfl
@[simp] theorem State.answer_job (s : State) (bs : List Byte) : (s.answer bs).job = s.job := rfl
@[simp] theorem State.answer_host (s : State) (bs : List Byte) : (s.answer bs).host = s.host := rfl
@[simp] theorem State.answer_mbx (s : State) (bs : List Byte) : (s.answer bs).mbx = s.mbx := rfl
@[simp] theorem State.answer_pwr (s : State) (bs : List Byte) : (s.answer bs).pwr = s.pwr := rfl
@[simp] theorem State.answer_sec (s : State) (bs : List Byte) : (s.answer bs).sec = s.sec := rfl
@[simp] theorem State.answer_dbg (s : State) (bs : List Byte) : (s.answer bs).dbg = s.dbg := rfl
@[simp] theorem State.answer_cfg (s : State) (bs : List Byte) : (s.answer bs).cfg = s.cfg := rfl
@[simp] theorem State.answer_free (s : State) (bs : List Byte) : (s.answer bs).free = s.free := rfl
@[simp] theorem State.answer_due (s : State) (bs : List Byte) : (s.answer bs).due = s.due := rfl
@[simp] theorem State.answer_pending (s : State) (bs : List Byte) : (s.answer bs).pending = s.pending := rfl

/-! ### answerWord -/

@[simp] theorem State.answerWord_now (s : State) (w : W64) : (s.answerWord w).now = s.now := rfl
@[simp] theorem State.answerWord_hubOn (s : State) (w : W64) : (s.answerWord w).hubOn = s.hubOn := rfl
@[simp] theorem State.answerWord_mem (s : State) (w : W64) : (s.answerWord w).mem = s.mem := rfl
@[simp] theorem State.answerWord_ue (s : State) (w : W64) : (s.answerWord w).ue = s.ue := rfl
@[simp] theorem State.answerWord_folds (s : State) (w : W64) : (s.answerWord w).folds = s.folds := rfl
@[simp] theorem State.answerWord_dies (s : State) (w : W64) : (s.answerWord w).dies = s.dies := rfl
@[simp] theorem State.answerWord_ports (s : State) (w : W64) : (s.answerWord w).ports = s.ports := rfl
@[simp] theorem State.answerWord_col (s : State) (w : W64) : (s.answerWord w).col = s.col := rfl
@[simp] theorem State.answerWord_res (s : State) (w : W64) : (s.answerWord w).res = s.res := rfl
@[simp] theorem State.answerWord_job (s : State) (w : W64) : (s.answerWord w).job = s.job := rfl
@[simp] theorem State.answerWord_host (s : State) (w : W64) : (s.answerWord w).host = s.host := rfl
@[simp] theorem State.answerWord_mbx (s : State) (w : W64) : (s.answerWord w).mbx = s.mbx := rfl
@[simp] theorem State.answerWord_pwr (s : State) (w : W64) : (s.answerWord w).pwr = s.pwr := rfl
@[simp] theorem State.answerWord_sec (s : State) (w : W64) : (s.answerWord w).sec = s.sec := rfl
@[simp] theorem State.answerWord_dbg (s : State) (w : W64) : (s.answerWord w).dbg = s.dbg := rfl
@[simp] theorem State.answerWord_cfg (s : State) (w : W64) : (s.answerWord w).cfg = s.cfg := rfl
@[simp] theorem State.answerWord_free (s : State) (w : W64) : (s.answerWord w).free = s.free := rfl
@[simp] theorem State.answerWord_due (s : State) (w : W64) : (s.answerWord w).due = s.due := rfl
@[simp] theorem State.answerWord_pending (s : State) (w : W64) : (s.answerWord w).pending = s.pending := rfl

/-! ### The part an update writes -/

@[simp] theorem State.updHost_host (s : State) (g : HostIf → HostIf) : (s.updHost g).host = g s.host := rfl
@[simp] theorem State.updPwr_pwr (s : State) (g : Pwr → Pwr) : (s.updPwr g).pwr = g s.pwr := rfl
@[simp] theorem State.updSec_sec (s : State) (g : Sec → Sec) : (s.updSec g).sec = g s.sec := rfl
@[simp] theorem State.updCfg_cfg (s : State) (g : Cfg → Cfg) : (s.updCfg g).cfg = g s.cfg := rfl
@[simp] theorem State.answer_rdata (s : State) (bs : List Byte) : (s.answer bs).rdata = bs := rfl
@[simp] theorem State.answerWord_rdata (s : State) (w : W64) : (s.answerWord w).rdata = leBytes 8 w.toNat := rfl

end Sys2Proof.Machine
end

