-- ==== Sys2Proof/Laws/Folds.lean ====
section
/-!
SUPPORT. Sys2Proof/Laws/Folds.lean: reading a fold, core, thread, event slot, base die or port back after one was written.
-/
namespace Sys2Proof.Machine

@[simp] theorem State.fold_setFold (s : State) (f : Nat) (x : Fold) : (s.setFold f x).fold f = x :=
  SMap.get_set_same ..
theorem State.fold_setFold_other (s : State) {f g : Nat} (x : Fold) (h : g ≠ f) : (s.setFold f x).fold g = s.fold g :=
  SMap.get_set_other _ _ _ h

@[simp] theorem State.fold_updFold (s : State) (f : Nat) (g : Fold → Fold) : (s.updFold f g).fold f = g (s.fold f) :=
  s.fold_setFold f _
theorem State.fold_updFold_other (s : State) {f k : Nat} (g : Fold → Fold) (h : k ≠ f) :
    (s.updFold f g).fold k = s.fold k :=
  s.fold_setFold_other _ h

@[simp] theorem State.core_setCore (s : State) (f c : Nat) (x : Core) : (s.setCore f c x).core f c = x := by
  simp [State.core, State.setCore]
theorem State.core_setCore_other (s : State) (f : Nat) {c k : Nat} (x : Core) (h : k ≠ c) :
    (s.setCore f c x).core f k = s.core f k := by
  simp [State.core, State.setCore, SMap.get_set_other _ _ _ h]
theorem State.fold_setCore (s : State) (f c : Nat) (x : Core) :
    (s.setCore f c x).fold f = { s.fold f with cores := SMap.set {} (s.fold f).cores c x } := by
  simp [State.setCore]
theorem State.fold_setCore_other (s : State) {f g : Nat} (c : Nat) (x : Core) (h : g ≠ f) :
    (s.setCore f c x).fold g = s.fold g :=
  s.fold_updFold_other _ h

@[simp] theorem State.core_updCore (s : State) (f c : Nat) (g : Core → Core) :
    (s.updCore f c g).core f c = g (s.core f c) := s.core_setCore f c _
theorem State.core_updCore_other (s : State) (f : Nat) {c k : Nat} (g : Core → Core) (h : k ≠ c) :
    (s.updCore f c g).core f k = s.core f k := s.core_setCore_other f _ h

@[simp] theorem State.thread_setThread (s : State) (f c t : Nat) (x : Thread) : (s.setThread f c t x).thread f c t = x := by
  simp [State.thread, State.setThread]
theorem State.thread_setThread_other (s : State) (f c : Nat) {t k : Nat} (x : Thread) (h : k ≠ t) :
    (s.setThread f c t x).thread f c k = s.thread f c k := by
  simp [State.thread, State.setThread, SMap.get_set_other _ _ _ h]
@[simp] theorem State.core_setThread (s : State) (f c t : Nat) (x : Thread) :
    (s.setThread f c t x).core f c = { s.core f c with threads := SMap.set {} (s.core f c).threads t x } := by
  simp [State.setThread]
theorem State.core_setThread_other (s : State) (f : Nat) {c k : Nat} (t : Nat) (x : Thread) (h : k ≠ c) :
    (s.setThread f c t x).core f k = s.core f k :=
  s.core_updCore_other f _ h

/-- A fold's own fields other than its cores. -/
theorem State.fold_setThread (s : State) (f c t : Nat) (x : Thread) :
    ∃ cs, (s.setThread f c t x).fold f = { s.fold f with cores := cs } := by
  exact ⟨_, s.fold_setCore f c _⟩
theorem State.fold_setThread_other (s : State) {f g : Nat} (c t : Nat) (x : Thread) (h : g ≠ f) :
    (s.setThread f c t x).fold g = s.fold g :=
  s.fold_setCore_other c _ h

@[simp] theorem State.slot_setSlot (s : State) (f n : Nat) (e : EvSlot) : (s.setSlot f n e).slot f n = e := by
  simp [State.slot, State.setSlot]
theorem State.slot_setSlot_other (s : State) (f : Nat) {n m : Nat} (e : EvSlot) (h : m ≠ n) :
    (s.setSlot f n e).slot f m = s.slot f m := by
  simp [State.slot, State.setSlot, SMap.get_set_other _ _ _ h]

@[simp] theorem State.die_setDie (s : State) (d : Nat) (x : Die) : (s.setDie d x).die d = x := SMap.get_set_same ..
theorem State.die_setDie_other (s : State) {d e : Nat} (x : Die) (h : e ≠ d) : (s.setDie d x).die e = s.die e :=
  SMap.get_set_other _ _ _ h
@[simp] theorem State.die_updDie (s : State) (d : Nat) (g : Die → Die) : (s.updDie d g).die d = g (s.die d) :=
  s.die_setDie d _
theorem State.die_updDie_other (s : State) {d e : Nat} (g : Die → Die) (h : e ≠ d) : (s.updDie d g).die e = s.die e :=
  s.die_setDie_other _ h

@[simp] theorem State.port_setPort (s : State) (p : Nat) (x : Port) : (s.setPort p x).port p = x := SMap.get_set_same ..
theorem State.port_setPort_other (s : State) {p q : Nat} (x : Port) (h : q ≠ p) : (s.setPort p x).port q = s.port q :=
  SMap.get_set_other _ _ _ h
@[simp] theorem State.port_updPort (s : State) (p : Nat) (g : Port → Port) : (s.updPort p g).port p = g (s.port p) :=
  s.port_setPort p _
theorem State.port_updPort_other (s : State) {p q : Nat} (g : Port → Port) (h : q ≠ p) :
    (s.updPort p g).port q = s.port q :=
  s.port_setPort_other _ h

end Sys2Proof.Machine
end

