-- ==== Sys2Proof/Laws/Memory.lean ====
section
/-!
SUPPORT. Sys2Proof/Laws/Memory.lean: reading the memory after a write, and the canonical form every write keeps.
-/
namespace Sys2Proof.Machine

/-! ### One byte -/

theorem rdByte_cellDrop_same (m : List Host.Cell) (a : Nat) : rdByte (cellDrop m a) a = 0 := by
  induction m with
  | nil => rfl
  | cons x m ih =>
    obtain ⟨k, v⟩ := x
    by_cases h : k = a
    · simpa [cellDrop, h] using ih
    · simp [cellDrop, rdByte, h, ih]

theorem rdByte_cellDrop_other (m : List Host.Cell) {a b : Nat} (h : b ≠ a) :
    rdByte (cellDrop m a) b = rdByte m b := by
  induction m with
  | nil => rfl
  | cons x m ih =>
    obtain ⟨k, v⟩ := x
    by_cases hk : k = a
    · subst hk
      simp [cellDrop, rdByte, ih, Ne.symm h]
    · simp only [cellDrop, hk, if_false, rdByte, ih]

theorem rdByte_cellIns_same (m : List Host.Cell) (a : Nat) (v : Byte) : rdByte (cellIns m a v) a = v := by
  induction m with
  | nil => simp [cellIns, rdByte]
  | cons x m ih =>
    obtain ⟨k, w⟩ := x
    by_cases h₁ : a < k
    · simp [cellIns, rdByte, h₁]
    · by_cases h₂ : a = k
      · simp [cellIns, rdByte, h₂]
      · simp [cellIns, rdByte, h₁, h₂, Ne.symm h₂, ih]

theorem rdByte_cellIns_other (m : List Host.Cell) {a b : Nat} (v : Byte) (h : b ≠ a) :
    rdByte (cellIns m a v) b = rdByte m b := by
  induction m with
  | nil => simp [cellIns, rdByte, Ne.symm h]
  | cons x m ih =>
    obtain ⟨k, w⟩ := x
    by_cases h₁ : a < k
    · simp [cellIns, rdByte, h₁, Ne.symm h]
    · by_cases h₂ : a = k
      · subst h₂
        simp [cellIns, rdByte, Ne.symm h]
      · simp [cellIns, rdByte, h₁, h₂, ih]

/-- A byte reads back as it was written. -/
theorem rdByte_wrByte_same (m : List Host.Cell) (a : Nat) (v : Byte) : rdByte (wrByte m a v) a = v := by
  unfold wrByte
  split
  · rename_i h
    rw [rdByte_cellDrop_same, h]
  · exact rdByte_cellIns_same m a v

/-- Every other byte reads as before. -/
theorem rdByte_wrByte_other (m : List Host.Cell) {a b : Nat} (v : Byte) (h : b ≠ a) :
    rdByte (wrByte m a v) b = rdByte m b := by
  unfold wrByte
  split
  · exact rdByte_cellDrop_other m h
  · exact rdByte_cellIns_other m v h

/-! ### The canonical form -/

/-- The canonical form as a pairwise order and a condition on every cell. -/
theorem Memory.wf_iff (m : List Host.Cell) :
    Memory.wf m = true ↔ m.Pairwise (fun x y => x.1 < y.1) ∧ ∀ x ∈ m, x.2 ≠ 0 := by
  induction m with
  | nil => simp [Memory.wf]
  | cons x m ih =>
    obtain ⟨k, v⟩ := x
    cases m with
    | nil => simp [Memory.wf]
    | cons y m =>
      obtain ⟨k', v'⟩ := y
      simp only [Memory.wf, Bool.and_eq_true, decide_eq_true_eq, bne_iff_ne, ih, List.pairwise_cons,
        List.mem_cons, forall_eq_or_imp]
      constructor
      · rintro ⟨⟨hv, hk⟩, ⟨h₁, h₂⟩, h₃, h₄⟩
        exact ⟨⟨⟨hk, fun z hz => Nat.lt_trans hk (h₁ z hz)⟩, h₁, h₂⟩, hv, h₃, h₄⟩
      · rintro ⟨⟨⟨hk, _⟩, h₁, h₂⟩, hv, h₃, h₄⟩
        exact ⟨⟨hv, hk⟩, ⟨h₁, h₂⟩, h₃, h₄⟩

theorem cellDrop_eq_filter (m : List Host.Cell) (a : Nat) :
    cellDrop m a = m.filter fun c => !(decide (c.1 = a)) := by
  induction m with
  | nil => rfl
  | cons x m ih =>
    obtain ⟨k, v⟩ := x
    by_cases h : k = a
    · simp [cellDrop, h, ih]
    · simp [cellDrop, h, ih]

/-- Leaving cells out keeps the canonical form. -/
theorem Memory.wf_filter {m : List Host.Cell} (p : Host.Cell → Bool) (h : Memory.wf m = true) :
    Memory.wf (m.filter p) = true := by
  rw [Memory.wf_iff] at *
  exact ⟨h.1.filter p, fun x hx => h.2 x (List.mem_filter.mp hx).1⟩

theorem mem_cellIns {m : List Host.Cell} {a : Nat} {v : Byte} {x : Host.Cell} (h : x ∈ cellIns m a v) :
    x = (a, v) ∨ x ∈ m := by
  induction m with
  | nil => simpa [cellIns] using h
  | cons y m ih =>
    obtain ⟨k, w⟩ := y
    simp only [cellIns] at h
    split at h
    · simpa using h
    · split at h
      · rcases List.mem_cons.mp h with h | h
        · exact .inl h
        · exact .inr (List.mem_cons_of_mem _ h)
      · rcases List.mem_cons.mp h with h | h
        · exact .inr (h ▸ List.mem_cons_self ..)
        · rcases ih h with h | h
          · exact .inl h
          · exact .inr (List.mem_cons_of_mem _ h)

theorem cellIns_pairwise {m : List Host.Cell} (a : Nat) (v : Byte)
    (h : m.Pairwise fun x y => x.1 < y.1) : (cellIns m a v).Pairwise fun x y => x.1 < y.1 := by
  induction m with
  | nil => simp [cellIns]
  | cons y m ih =>
    obtain ⟨k, w⟩ := y
    rw [List.pairwise_cons] at h
    simp only [cellIns]
    split
    · rename_i hk
      refine List.pairwise_cons.mpr ⟨fun z hz => ?_, List.pairwise_cons.mpr h⟩
      rcases List.mem_cons.mp hz with rfl | hz
      · exact hk
      · exact Nat.lt_trans hk (h.1 z hz)
    · split
      · rename_i hk
        exact List.pairwise_cons.mpr ⟨fun z hz => hk ▸ h.1 z hz, h.2⟩
      · rename_i h₁ h₂
        refine List.pairwise_cons.mpr ⟨fun z hz => ?_, ih h.2⟩
        rcases mem_cellIns hz with rfl | hz
        · show k < a
          omega
        · exact h.1 z hz

/-- Writing a byte keeps the canonical form. -/
theorem Memory.wf_wrByte {m : List Host.Cell} (a : Nat) (v : Byte) (h : Memory.wf m = true) :
    Memory.wf (wrByte m a v) = true := by
  unfold wrByte
  split
  · rw [cellDrop_eq_filter]
    exact Memory.wf_filter _ h
  · rename_i hv
    rw [Memory.wf_iff] at *
    refine ⟨cellIns_pairwise a v h.1, fun x hx => ?_⟩
    rcases mem_cellIns hx with rfl | hx
    · exact hv
    · exact h.2 x hx

/-- Writing a run of bytes keeps the canonical form. -/
theorem Memory.wf_putBytes (bs : List Byte) : ∀ {m : List Host.Cell} (a : Nat), Memory.wf m = true →
    Memory.wf (putBytes m a bs) = true := by
  induction bs with
  | nil => exact fun _ h => h
  | cons b bs ih => exact fun a h => ih (a + 1) (Memory.wf_wrByte (canon a) b h)

end Sys2Proof.Machine
end

