-- ==== Sys2Proof/Laws/Trace.lean ====
section
/-!
SUPPORT. Sys2Proof/Laws/Trace.lean: with no die tracing, records and triggers change nothing, and an event that is
counted changes nothing but the counters of its fold.
-/
namespace Sys2Proof.Machine

theorem Untraced.phase {s : State} (h : Untraced s) (d : Nat) : (s.trc d).phase = .off := by
  rcases Nat.eq_zero_or_pos d with rfl | hd
  · exact h.1
  · have : s.trc d = s.trc 1 := by simp [State.trc, Nat.ne_of_gt hd]
    exact this ▸ h.2

theorem Untraced.not_accepts {s : State} (h : Untraced s) (d : Nat) : (s.trc d).accepts = false := by
  simp [Trc.accepts, h.phase d]

/-- Untraced depends on the trace registers alone. -/
theorem Untraced.of_dbg {s s' : State} (h : Untraced s) (e : s'.dbg = s.dbg) : Untraced s' := by
  simpa only [Untraced, State.trc, e] using h

theorem Untraced.emit {s : State} (h : Untraced s) (d kind src sub : Nat) (ps : List W64) :
    s.emit d kind src sub ps = s := by
  simp [State.emit, h.not_accepts d]

theorem Untraced.coreRec {s : State} (h : Untraced s) (f c t clsBit kind : Nat) (ps : List W64) :
    s.coreRec f c t clsBit kind ps = s := by
  simp [State.coreRec, h.emit]

theorem Untraced.foldRec {s : State} (h : Untraced s) (f kind count : Nat) : s.foldRec f kind count = s := by
  simp [State.foldRec, h.emit]

theorem Untraced.hubRec {s : State} (h : Untraced s) (kind src : Nat) (ps : List W64) :
    s.hubRec kind src ps = s := by
  simp [State.hubRec, h.emit]

theorem Untraced.mayFire {s : State} (h : Untraced s) (d src : Nat) : s.mayFire d src = false := by
  simp [State.mayFire, h.phase d]

theorem Untraced.fireOn {s : State} (h : Untraced s) (d src agent : Nat) : s.fireOn d src agent = s := by
  simp [State.fireOn, h.mayFire]

theorem Untraced.fire {s : State} (h : Untraced s) (d src agent : Nat) : s.fire d src agent = s := by
  simp [State.fire, h.mayFire]

theorem Untraced.fireHub {s : State} (h : Untraced s) (src : Nat) : s.fireHub src = s := by
  simp [State.fireHub, h.mayFire, h.fireOn]

/-! ### Frames -/

theorem OnlyFold.refl (f : Nat) (s : State) : OnlyFold f s s :=
  ⟨rfl, fun _ _ => rfl, (s.fold f).cores, (s.fold f).regs, rfl, rfl⟩

theorem OnlyFold.trans {f : Nat} {s s' s'' : State} (a : OnlyFold f s s') (b : OnlyFold f s' s'') : OnlyFold f s s'' := by
  obtain ⟨cs, r, e, hr⟩ := a.fold
  obtain ⟨cs', r', e', hr'⟩ := b.fold
  refine ⟨?_, fun g hg => (b.folds g hg).trans (a.folds g hg), cs', r', ?_, ?_⟩
  · rw [b.rest, a.rest]
  · rw [e', e]
  · rw [hr', e, hr]

theorem OnlyFold.dbg {f : Nat} {s s' : State} (a : OnlyFold f s s') : s'.dbg = s.dbg := by rw [a.rest]
theorem OnlyFold.due {f : Nat} {s s' : State} (a : OnlyFold f s s') : s'.due = s.due := by rw [a.rest]
theorem OnlyFold.mem {f : Nat} {s s' : State} (a : OnlyFold f s s') : s'.mem = s.mem := by rw [a.rest]
theorem OnlyFold.untraced {f : Nat} {s s' : State} (a : OnlyFold f s s') (h : Untraced s) : Untraced s' := h.of_dbg a.dbg
theorem OnlyFold.island {f : Nat} {s s' : State} (a : OnlyFold f s s') : (s'.fold f).island = (s.fold f).island := by
  obtain ⟨_, _, e, _⟩ := a.fold
  rw [e]
theorem OnlyFold.clocked {f : Nat} {s s' : State} (a : OnlyFold f s s') : (s'.fold f).clocked = (s.fold f).clocked := by
  simp only [Fold.clocked, a.island]
theorem OnlyFold.evt {f : Nat} {s s' : State} (a : OnlyFold f s s') : (s'.fold f).evt = (s.fold f).evt := by
  obtain ⟨_, _, e, _⟩ := a.fold
  rw [e]

theorem OnlyCore.refl (f c : Nat) (s : State) : OnlyCore f c s s := ⟨OnlyFold.refl f s, fun _ _ => rfl⟩

theorem OnlyCore.trans {f c : Nat} {s s' s'' : State} (a : OnlyCore f c s s') (b : OnlyCore f c s' s'') :
    OnlyCore f c s s'' :=
  ⟨a.toOnlyFold.trans b.toOnlyFold, fun k hk => (b.cores k hk).trans (a.cores k hk)⟩

/-- What a core's own registers and threads become is all that an update of it changes. -/
theorem OnlyCore.setCore (s : State) (f c : Nat) (x : Core) : OnlyCore f c s (s.setCore f c x) :=
  ⟨⟨rfl, fun _ hg => s.fold_setCore_other c x hg, _, _, s.fold_setCore f c x, rfl⟩,
    fun _ hk => s.core_setCore_other f x hk⟩
theorem OnlyCore.updCore (s : State) (f c : Nat) (g : Core → Core) : OnlyCore f c s (s.updCore f c g) :=
  OnlyCore.setCore s f c _
theorem OnlyCore.setThread (s : State) (f c t : Nat) (x : Thread) : OnlyCore f c s (s.setThread f c t x) :=
  OnlyCore.updCore s f c _
theorem OnlyCore.sched (s : State) (f c : Nat) : OnlyCore f c s (s.sched f c) := by
  unfold State.sched
  split
  · exact OnlyCore.updCore s f c _
  · exact OnlyCore.refl f c s

/-! ### The event counters (R627) -/

/-- Only the event counters of a fold differ. -/
structure OnlyPmc (f : Nat) (s s' : State) : Prop where
  rest  : s' = { s with folds := s'.folds }
  folds : ∀ g, g ≠ f → s'.fold g = s.fold g
  fold  : ∃ m k, s'.fold f = { s.fold f with regs := { (s.fold f).regs with pmc := m, pmcFired := k } }

theorem OnlyPmc.refl (f : Nat) (s : State) : OnlyPmc f s s := ⟨rfl, fun _ _ => rfl, _, _, rfl⟩

theorem OnlyPmc.trans {f : Nat} {s s' s'' : State} (a : OnlyPmc f s s') (b : OnlyPmc f s' s'') : OnlyPmc f s s'' := by
  obtain ⟨m, k, e⟩ := a.fold
  obtain ⟨m', k', e'⟩ := b.fold
  refine ⟨?_, fun g hg => (b.folds g hg).trans (a.folds g hg), m', k', ?_⟩
  · rw [b.rest, a.rest]
  · rw [e', e]

theorem OnlyPmc.core {f : Nat} {s s' : State} (a : OnlyPmc f s s') (g c : Nat) : s'.core g c = s.core g c := by
  by_cases h : g = f
  · subst h
    obtain ⟨m, k, e⟩ := a.fold
    simp [State.core, e]
  · simp [State.core, a.folds g h]
theorem OnlyPmc.thread {f : Nat} {s s' : State} (a : OnlyPmc f s s') (g c t : Nat) :
    s'.thread g c t = s.thread g c t := by
  simp [State.thread, a.core]
theorem OnlyPmc.dbg {f : Nat} {s s' : State} (a : OnlyPmc f s s') : s'.dbg = s.dbg := by rw [a.rest]
theorem OnlyPmc.untraced {f : Nat} {s s' : State} (a : OnlyPmc f s s') (h : Untraced s) : Untraced s' := h.of_dbg a.dbg

theorem OnlyPmc.onlyCore {f : Nat} {s s' : State} (a : OnlyPmc f s s') (c : Nat) : OnlyCore f c s s' := by
  obtain ⟨m, k, e⟩ := a.fold
  exact ⟨⟨a.rest, a.folds, _, _, e, rfl⟩, fun k _ => a.core f k⟩

theorem OnlyPmc.foldRegs (s : State) (f : Nat) (m : SMap W64) (k : Nat) :
    OnlyPmc f s (s.foldRegs f fun r => { r with pmc := m, pmcFired := k }) :=
  ⟨rfl, fun _ hg => s.fold_updFold_other _ hg, _, _, s.fold_updFold f _⟩

theorem OnlyPmc.pmcAdd {s : State} (h : Untraced s) (f i n : Nat) : OnlyPmc f s (s.pmcAdd f i n) := by
  unfold State.pmcAdd
  extract_lets r w old sum w' thr hit s₁
  have a : OnlyPmc f s s₁ :=
    ⟨rfl, fun _ hg => s.fold_updFold_other _ hg, _, _, s.fold_updFold f _⟩
  split
  · rw [(a.untraced h).fire]
    exact a
  · exact a

/-- An event that the counters of a fold may count. -/
theorem OnlyPmc.pmc {s : State} (h : Untraced s) (f code n : Nat) : OnlyPmc f s (s.pmc f code n) := by
  unfold State.pmc
  extract_lets sel
  split
  · exact OnlyPmc.refl f s
  · generalize List.range 8 = is
    have : ∀ s₁, OnlyPmc f s s₁ → OnlyPmc f s
        (is.foldl (fun s i => if fld sel (8 * i) 8 = code then s.pmcAdd f i n else s) s₁) := by
      induction is with
      | nil => exact fun _ h => h
      | cons i is ih =>
        intro s₁ a
        apply ih
        dsimp only
        split
        · exact a.trans (OnlyPmc.pmcAdd (a.untraced h) f i n)
        · exact a
    exact this s (OnlyPmc.refl f s)

end Sys2Proof.Machine
end

