-- ==== Sys2Proof/Laws/Threads.lean ====
section
/-!
SUPPORT. Sys2Proof/Laws/Threads.lean: what issuing an instruction, writing a register and moving the PC do, and nothing
else.
-/
namespace Sys2Proof.Machine

theorem settle_of_settled {s : State} (h : Settled s) : settle s = s := by
  have : ∀ n, settleN (n + 1) s = s := fun n => by
    unfold settleN
    rw [show s.due = [] from h]
  exact this 4095

theorem done_of_settled {s : State} (h : Settled s) : done s = .next s := by
  rw [done, settle_of_settled h]

/-! ### Threads -/

theorem State.th_setThread (s : State) (t : Tid) (x : Thread) :
    (s.setThread t.fold.val t.core.val t.thr.val x).th t = x := s.thread_setThread ..

theorem OnlyThread.refl {t : Tid} {s : State} (h : (s.core t.fold.val t.core.val).last = t.thr.val) : OnlyThread t s s :=
  ⟨OnlyCore.refl .., ⟨(s.core t.fold.val t.core.val).threads, by simp [← h]⟩, fun _ _ => rfl⟩

theorem OnlyThread.trans {t : Tid} {s s' s'' : State} (a : OnlyThread t s s') (b : OnlyThread t s' s'') :
    OnlyThread t s s'' := by
  obtain ⟨x, ex⟩ := a.core
  obtain ⟨y, ey⟩ := b.core
  exact ⟨a.toOnlyCore.trans b.toOnlyCore, ⟨y, by rw [ey, ex]⟩,
    fun k hk => (b.threads k hk).trans (a.threads k hk)⟩

theorem OnlyThread.last {t : Tid} {s s' : State} (a : OnlyThread t s s') :
    (s'.core t.fold.val t.core.val).last = t.thr.val := by
  obtain ⟨_, e⟩ := a.core
  rw [e]

/-- Writing a thread after it issued. -/
theorem OnlyThread.setThread {t : Tid} {s s' : State} (a : OnlyThread t s s') (x : Thread) :
    OnlyThread t s (s'.setThread t.fold.val t.core.val t.thr.val x) := by
  refine a.trans ⟨OnlyCore.setThread ..,
    ⟨SMap.set {} (s'.core t.fold.val t.core.val).threads t.thr.val x, ?_⟩,
    fun k hk => s'.thread_setThread_other _ _ x hk⟩
  simp [s'.core_setThread, ← a.last]

theorem State.nextPc_eq (s : State) (t : Tid) :
    s.nextPc t = s.setThread t.fold.val t.core.val t.thr.val { s.th t with pc := (s.th t).pc + 4 } := rfl

theorem State.th_nextPc (s : State) (t : Tid) : (s.nextPc t).th t = { s.th t with pc := (s.th t).pc + 4 } :=
  s.th_setThread t _

theorem State.th_finish (s : State) (t : Tid) (rd : Nat) (x : W64) : (s.finish t rd x).th t = (s.th t).wrote rd x := by
  rw [State.finish, State.th_nextPc, State.putReg, State.th_setThread]
  simp only [Thread.wrote, Thread.setReg]
  split <;> rfl

theorem OnlyThread.finish {t : Tid} {s s' : State} (a : OnlyThread t s s') (rd : Nat) (x : W64) :
    OnlyThread t s (s'.finish t rd x) :=
  (a.setThread _).setThread _

theorem OnlyThread.nextPc {t : Tid} {s s' : State} (a : OnlyThread t s s') : OnlyThread t s (s'.nextPc t) :=
  a.setThread _

/-- An instruction whose word is legal and whose guard holds runs on a state in which only the choice of the next
thread and the event counters have moved. -/
theorem Issues.issueInstr {s : State} {t : Tid} {w : W32} {op : Nat} (h : Issues s t w op) (k : knownOp op = true)
    (body : State → State) :
    ∃ s₁, issueInstr s t w false body = body s₁ ∧ OnlyThread t s s₁ ∧ s₁.th t = s.th t := by
  let x : State := s.updCore t.fold.val t.core.val fun x => { x with last := t.thr.val }
  have hx : OnlyCore t.fold.val t.core.val s x := OnlyCore.updCore ..
  have a : OnlyPmc t.fold.val x (x.pmc t.fold.val 0x40 1) := OnlyPmc.pmc (hx.untraced h.quiet) ..
  have hc : x.core t.fold.val t.core.val = { s.core t.fold.val t.core.val with last := t.thr.val } :=
    s.core_updCore ..
  have ht : ∀ k, x.thread t.fold.val t.core.val k = s.thread t.fold.val t.core.val k := fun k => by
    simp [State.thread, hc]
  refine ⟨x.pmc t.fold.val 0x40 1, ?_, ⟨hx.trans (a.onlyCore _), ⟨_, (a.core ..).trans hc⟩, fun k _ => ?_⟩, ?_⟩
  · have g : guardHolds ((x.pmc t.fold.val 0x40 1).thread t.fold.val t.core.val t.thr.val) w = true := by
      rw [a.thread, ht]
      exact h.guard
    have r := h.running
    simp only [State.th] at r
    simp only [Machine.issueInstr, r, h.clocked, h.fetched, h.opcode, k, x] at g ⊢
    simp [g]
  · rw [a.thread, ht]
  · simp only [State.th, a.thread, ht]

/-- A legal instruction, whose guard holds, that changes its own thread alone. -/
theorem Issues.becomes {s : State} {t : Tid} {w : W32} {op : Nat} (h : Issues s t w op) (k : knownOp op = true)
    {i : Instr} {bad : Bool} {body : State → State} {v : Thread}
    (e : exec i s = done (Machine.issueInstr s t w bad body)) (hbad : bad = false)
    (hb : ∀ s₁, OnlyThread t s s₁ → s₁.th t = s.th t → OnlyThread t s (body s₁) ∧ (body s₁).th t = v) :
    ThreadBecomes i t s v := by
  subst hbad
  obtain ⟨s₁, e₁, a, ht⟩ := h.issueInstr k body
  obtain ⟨b, hv⟩ := hb s₁ a ht
  refine ⟨body s₁, ?_, hv, b⟩
  rw [e, e₁, done_of_settled]
  exact b.due.trans h.settled

/-- The common case: one register written. -/
theorem Issues.wrote {s : State} {t : Tid} {w : W32} {op : Nat} (h : Issues s t w op) (k : knownOp op = true)
    {i : Instr} {bad : Bool} {body : State → State} {rd : Nat} {x : W64}
    (e : exec i s = done (Machine.issueInstr s t w bad body)) (hbad : bad = false)
    (hb : ∀ s₁, OnlyThread t s s₁ → s₁.th t = s.th t → body s₁ = s₁.finish t rd x) :
    ThreadBecomes i t s ((s.th t).wrote rd x) :=
  h.becomes k e hbad fun s₁ a ht => by
    rw [hb s₁ a ht, State.th_finish, ht]
    exact ⟨a.finish rd x, rfl⟩

end Sys2Proof.Machine
end

