-- ==== Sys2Proof/Laws/Ports.lean ====
section
/-!
SUPPORT. Sys2Proof/Laws/Ports.lean: what queueing a packet, sending what can be sent and giving credits change, and how a
row that names a packet comes to act on it.
-/
namespace Sys2Proof.Machine

theorem SendsOnly.refl (x : Port) : SendsOnly x x := rfl
theorem SendsOnly.trans {x y z : Port} (a : SendsOnly x y) (b : SendsOnly y z) : SendsOnly x z := by
  unfold SendsOnly at *
  rw [b, a]

theorem SendsOnly.withAll (x : Port) (a : SMap Nat) (b : SMap Nat) (c : SMap (List TxPkt)) (d : SMap Nat)
    (e f : Nat) (i : List W64) (g : List Frame) (h : Nat) : SendsOnly x { x with
      credits := a, adv := b, txq := c, deficit := d, turn := e, seq := f, timeReq := i, unacked := g, fseqOut := h } := rfl

theorem CountsSent.refl (c : Col) : CountsSent c c := ⟨rfl, rfl, fun _ _ => rfl⟩
theorem CountsSent.trans {c c' c'' : Col} (a : CountsSent c c') (b : CountsSent c' c'') : CountsSent c c'' :=
  ⟨by rw [b.rest, a.rest], b.insts.trans a.insts, fun n h => (b.recs n h).trans (a.recs n h)⟩

/-- A packet that leaves changes the ports' state nowhere, and of the collective engine the bytes sent. -/
theorem CountsSent.raccSent (s : State) (k : Packet) : CountsSent s.col (s.raccSent k).col := by
  unfold State.raccSent
  split
  · exact .refl _
  · refine ⟨rfl, ?_, fun n h => ?_⟩
    · simp only [List.map_map]
      refine List.map_congr_left fun x _ => ?_
      simp only [Function.comp]
      split <;> rfl
    · dsimp only
      split
      · exact SMap.get_set_other 0 _ _ (by omega)
      · rfl

theorem State.raccSent_rest (s : State) (k : Packet) : s.raccSent k = { s with col := (s.raccSent k).col } := by
  unfold State.raccSent
  split <;> rfl

theorem OnlySends.refl (p : Nat) (s : State) : OnlySends p s s := ⟨rfl, .refl _, fun _ _ => rfl, .refl _⟩

theorem OnlySends.trans {p : Nat} {s s' s'' : State} (a : OnlySends p s s') (b : OnlySends p s' s'') :
    OnlySends p s s'' :=
  ⟨by rw [b.rest, a.rest], a.col.trans b.col, fun q h => (b.ports q h).trans (a.ports q h), a.port.trans b.port⟩

theorem OnlySends.setPort {p : Nat} (s : State) {x : Port} (h : SendsOnly (s.port p) x) :
    OnlySends p s (s.setPort p x) :=
  ⟨rfl, .refl _, fun _ hq => s.port_setPort_other x hq, by rw [s.port_setPort]; exact h⟩

theorem OnlySends.dbg {p : Nat} {s s' : State} (a : OnlySends p s s') : s'.dbg = s.dbg := by rw [a.rest]
theorem OnlySends.due {p : Nat} {s s' : State} (a : OnlySends p s s') : s'.due = s.due := by rw [a.rest]
theorem OnlySends.mem {p : Nat} {s s' : State} (a : OnlySends p s s') : s'.mem = s.mem := by rw [a.rest]
theorem OnlySends.untraced {p : Nat} {s s' : State} (a : OnlySends p s s') (h : Untraced s) : Untraced s' :=
  h.of_dbg a.dbg
theorem OnlySends.settled {p : Nat} {s s' : State} (a : OnlySends p s s') (h : Settled s) : Settled s' :=
  a.due.trans h
theorem OnlySends.portsSend {p : Nat} {s s' : State} (a : OnlySends p s s') : PortsSend s s' :=
  ⟨a.rest, a.col, fun q => by
    by_cases h : q = p
    · exact h ▸ a.port
    · rw [a.ports q h]; exact .refl _⟩

theorem PortsSend.refl (s : State) : PortsSend s s := ⟨rfl, .refl _, fun _ => .refl _⟩
theorem PortsSend.trans {s s' s'' : State} (a : PortsSend s s') (b : PortsSend s' s'') : PortsSend s s'' :=
  ⟨by rw [b.rest, a.rest], a.col.trans b.col, fun q => (a.ports q).trans (b.ports q)⟩

theorem Untraced.pktRec {s : State} (h : Untraced s) (p kind : Nat) (k : Packet) : s.pktRec p kind k = s := by
  simp [State.pktRec, h.hubRec]

/-- The choice of the next packet changes deficit counters and the turn. -/
theorem Port.drr_sends (n : Nat) (x : Port) {vc : Nat} {y : Port} (h : x.drr n = some (vc, y)) : SendsOnly x y := by
  induction n generalizing x with
  | zero => simp [Port.drr] at h
  | succ n ih =>
    unfold Port.drr at h
    dsimp only at h
    repeat' split at h
    all_goals first
      | exact SendsOnly.trans (.withAll ..) (ih _ h)
      | · obtain ⟨-, rfl⟩ := Prod.mk.inj (Option.some.inj h)
          exact .withAll ..

theorem Port.pick_sends (x : Port) {vc : Nat} {y : Port} (h : x.pick = some (vc, y)) : SendsOnly x y := by
  unfold Port.pick at h
  split at h
  · obtain ⟨-, rfl⟩ := by simpa using h
    rfl
  split at h
  · obtain ⟨-, rfl⟩ := by simpa using h
    rfl
  split at h
  · exact x.drr_sends 64 h
  · simp at h

theorem OnlySends.sendOne {s : State} (u : Untraced s) (p vc : Nat) {x : Port} (h : SendsOnly (s.port p) x) :
    OnlySends p s (s.sendOne p vc x) := by
  unfold State.sendOne
  split
  · exact .refl p s
  · dsimp only
    have e : ∀ y k, ((s.setPort p y).raccSent k).pktRec p 0x20 k = (s.setPort p y).raccSent k := fun y k =>
      (Untraced.of_dbg (s' := (s.setPort p y).raccSent k) u (by rw [State.raccSent_rest]; rfl)).pktRec ..
    rw [e]
    have a : ∀ y k, OnlySends p (s.setPort p y) ((s.setPort p y).raccSent k) := fun y k =>
      ⟨by rw [State.raccSent_rest], .raccSent .., fun q _ => by rw [State.raccSent_rest]; rfl,
        by rw [State.raccSent_rest]; exact .refl _⟩
    exact (OnlySends.setPort s (h.trans (.withAll ..))).trans (a ..)

theorem OnlySends.pumpN (n : Nat) {s : State} (u : Untraced s) (p : Nat) : OnlySends p s (State.pumpN n s p) := by
  induction n generalizing s with
  | zero => exact .refl p s
  | succ n ih =>
    simp only [State.pumpN]
    split
    · exact .refl p s
    · split
      · rename_i vc x hx
        have a := OnlySends.sendOne u p vc ((s.port p).pick_sends hx)
        exact a.trans (ih (a.untraced u))
      · exact .refl p s

theorem OnlySends.pump {s : State} (u : Untraced s) (p : Nat) : OnlySends p s (s.pump p) := OnlySends.pumpN 64 u p

/-- Queueing a packet and sending what can be sent. -/
theorem OnlySends.send {s : State} (u : Untraced s) (p : Nat) (k : Packet) (o : Option (Nat × Nat × Nat)) :
    OnlySends p s (s.send p k o) := by
  unfold State.send
  have a : OnlySends p s (s.updPort p fun x => { x with
      txq := SMap.upd [] x.txq (if k.ptype = ptTIME || k.ptype = ptCREDIT then vcHdr else k.vc)
        (· ++ [{ pkt := k, owner := o }]) }) := OnlySends.setPort s (.withAll ..)
  exact a.trans (OnlySends.pump (a.untraced u) p)

/-- Returning the credits that are owed. -/
theorem OnlySends.giveCredits {s : State} (u : Untraced s) (p : Nat) : OnlySends p s (s.giveCredits p) := by
  unfold State.giveCredits
  dsimp only
  split
  · exact .refl p s
  · have a : OnlySends p s (s.updPort p fun x => { x with
        adv := (List.range 4).foldl (fun m vc => SMap.upd 0 m vc
          (· + ((List.range 4).map (s.owed p)).getD vc 0)) x.adv }) := OnlySends.setPort s (.withAll ..)
    exact a.trans (OnlySends.send (a.untraced u) p _ none)

/-! ### A port that becomes something -/

theorem PortBecomes.refl (p : Nat) (s : State) : PortBecomes p (s.port p) s s := ⟨rfl, fun _ _ => rfl, rfl⟩

theorem PortBecomes.set {p : Nat} {x : Port} {s s' : State} (a : PortBecomes p x s s') (y : Port) :
    PortBecomes p y s (s'.setPort p y) :=
  ⟨by rw [a.rest]; rfl, fun q h => (s'.port_setPort_other y h).trans (a.ports q h), s'.port_setPort ..⟩

theorem PortBecomes.setPort (p : Nat) (s : State) (y : Port) : PortBecomes p y s (s.setPort p y) := (PortBecomes.refl p s).set y

theorem PortBecomes.upd {p : Nat} {x : Port} {s s' : State} (a : PortBecomes p x s s') (g : Port → Port) :
    PortBecomes p (g x) s (s'.updPort p g) := by
  rw [State.updPort, a.port]
  exact a.set (g x)

theorem PortBecomes.due {p : Nat} {x : Port} {s s' : State} (a : PortBecomes p x s s') : s'.due = s.due := by rw [a.rest]
theorem PortBecomes.dbg {p : Nat} {x : Port} {s s' : State} (a : PortBecomes p x s s') : s'.dbg = s.dbg := by rw [a.rest]

/-! ### Rows that name a packet -/

theorem Received.rxNext {s : State} {p vc : Nat} {kind : RxKind} {k : Packet} {rest : List Packet}
    (h : Received s p vc kind k rest) : s.rxNext p vc = some (0, k) := by
  unfold State.rxNext
  rw [h.front]
  simp [List.range_succ_eq_map, h.free]

theorem Received.markWaits {s : State} {p vc : Nat} {kind : RxKind} {k : Packet} {rest : List Packet}
    (h : Received s p vc kind k rest) : s.markWaits p = s := by
  have e : ((SMap.get [] (s.port p).rxq vcGRAD).filter fun k => k.ptype = ptRACC && s.raccWaits k) = [] := by
    rw [List.filter_eq_nil_iff]
    intro q hq
    by_cases hk : q.ptype = ptRACC
    · simp [h.noWait q hq hk]
    · simp [hk]
  rw [State.markWaits, e]
  rfl

theorem Received.row {s : State} {p vc : Nat} {kind : RxKind} {k : Packet} {rest : List Packet}
    (h : Received s p vc kind k rest) : s.rxRow p vc kind = ((s.took p vc rest).rxAct p k).giveCredits p := by
  have e : (s.updPort p fun x => { x with rxq := SMap.upd [] x.rxq vc fun l => l.eraseIdx 0 }) = s.took p vc rest := by
    simp [State.updPort, State.took, SMap.upd, h.front]
  have u : Untraced (s.took p vc rest) := h.quiet.of_dbg rfl
  unfold State.rxRow
  simp only [h.markWaits, h.rxNext, h.kind, if_true]
  rw [State.rxPerform, e, u.pktRec]

/-- A packet whose effect leaves nothing to act on: the effect, and the credits that go back. -/
theorem Received.done {s : State} {p vc : Nat} {kind : RxKind} {k : Packet} {rest : List Packet}
    (h : Received s p vc kind k rest) (hs : Settled ((s.took p vc rest).rxAct p k))
    (hu : Untraced ((s.took p vc rest).rxAct p k)) :
    ∃ s', done (s.rxRow p vc kind) = .next s' ∧ OnlySends p ((s.took p vc rest).rxAct p k) s' := by
  have a := OnlySends.giveCredits hu p
  exact ⟨_, by rw [h.row, done_of_settled (a.settled hs)], a⟩

end Sys2Proof.Machine
end

