-- ==== Sys2Proof/Tests/Slice0.lean ====
section
/-!
SUPPORT. Sys2Proof/Tests/Slice0.lean: the model's own tests: ill-formed commands that WellFormed refuses, single steps with
results taken from the spec, and for each statement concrete states that meet its hypotheses.
-/
namespace Sys2Proof.Tests

-- One theorem at a time: the kernel's evaluations below each want a deep stack.
set_option Elab.async false

open Sys2Proof Sys2Proof.Machine

/-! ### Well-formedness -/

/-- Thread T0 of core C0 of fold 0. -/
def t0 : Tid := ⟨0, 0, 0⟩

/-- An instruction word of an opcode, with the rest of its bits. -/
def iw (op rest : Nat) : W32 := BitVec.ofNat 32 (op * 2 ^ 26 + rest)

/-- Every opcode row refuses the word of another opcode. -/
theorem test_wf_words : ∀ i ∈ [Instr.alu t0 (iw 2 0), .addi t0 (iw 1 0), .andi t0 (iw 1 0), .ori t0 (iw 1 0),
    .xori t0 (iw 1 0), .shi t0 (iw 1 0), .lui t0 (iw 1 0), .ldpc t0 (iw 1 0), .cmp t0 (iw 1 0), .cmpi t0 (iw 1 0),
    .pred t0 (iw 1 0), .ldz t0 (iw 0x14 0), .lds t0 (iw 0x13 0), .sto t0 (iw 0x1C 0), .amo t0 (iw 0x1B 0), .br t0 (iw 1 0),
    .call t0 (iw 1 0), .jr t0 (iw 1 0), .spawn t0 (iw 1 0), .halt t0 (iw 1 0), .yield t0 (iw 1 0), .issue t0 (iw 1 0),
    .evwait t0 (iw 1 0), .evsig t0 (iw 1 0), .evsigr t0 (iw 1 0), .evcnt t0 (iw 1 0), .fenceF t0 (iw 0x38 1),
    .fenceD t0 (iw 0x38 2), .fenceI t0 (iw 0x38 0), .mfs t0 (iw 1 0), .mark t0 (iw 1 0)], i.wf = false := by decide

/-- A word of no listed opcode comes as ALU. -/
theorem test_wf_unlisted : (Instr.alu t0 0).wf = true ∧ (Instr.alu t0 (iw 0x3F 0)).wf = true := by decide

/-- A flash slot of no words. -/
def noSlot : FlashSlot := ⟨[], [], [], true, true, [], true, false⟩

/-- Each other check of WellFormed refuses a command that breaks it. -/
theorem test_wf_checks : ∀ i ∈ [Instr.stackScrub 0 [⟨2 ^ 42, true⟩] [], .foldScrub 0 [⟨2 ^ 42, false⟩] [],
    .foldScrub 0 [] [.word (2 ^ 42) true], .foldScrub 0 [] [.line 17 0], .crookRead 5 0,
    .frameReceive 0 65536 0 true false 0 0 [], .linkHandshake 0 [], .imageVerified noSlot noSlot true, .resultSlotRead 0 7 16,
    .bar2Write 2 [0, 0, 0, 0], .bar2Read 0 4097, .i3cPrivateRead 257, .attest [],
    .nonce (some ⟨1, []⟩), .unlock (some ⟨2, []⟩) true true, .lock (some ⟨3, []⟩), .debugNs (some ⟨4, []⟩),
    .svnCommit (some ⟨5, []⟩), .rma (some ⟨6, []⟩) true true, .revoke (some ⟨7, []⟩) true true, .watchNotify 0 0 0],
    i.wf = false := by decide

/-- A private write of more than 256 bytes. -/
theorem test_wf_i3c_write (l : List Byte) (h : l.length = 257) : (Instr.i3cPrivateWrite l).wf = false := by
  show decide (l.length ≤ 256) = false
  rw [h]
  rfl

/-- The table spells no command by bits. -/
theorem test_no_word_spells_a_command : decodeTableWord 32 0x12345678 = none ∧ State.reset.withFetchWord 32 5 = State.reset := by
  decide

/-! ### Small states -/

/-- An MSI-X table in which vectors 1, 2, 4, 5 and 16 are not masked. -/
def msixOpen : SMap W64 := [(3, 0), (5, 0), (9, 0), (11, 0), (33, 0)]

/-- A device that has started up: the hub runs and the host is served. -/
def up : State := { State.reset with hubOn := true, cfg := { boot := .up }, host := { ready := true, msixTab := msixOpen } }

/-- The state a command leaves. -/
def after (i : Instr) (s : State) : State :=
  match exec i s with
  | .next s' => s'
  | _ => s

/-- T0 of C0 of fold 0 runs with registers g1 and g2. -/
def run2 (a b : W64) : State :=
  (up.setThread 0 0 0 { st := .running, pc := 0x1000, g := [(1, a), (2, b)] }).updCore 0 0 fun x => { x with l1i := [0x1000] }

/-- An R-format word: fn on g1 and g2 into g3. -/
def rw3 (op fn : Nat) : W32 := iw op (3 * 2 ^ 17 + 1 * 2 ^ 12 + 2 * 2 ^ 7 + fn)

theorem test_crook_acquire : ((after (.crookRead 2 9) up).crook 9).owner = 2 ∧ (after (.crookRead 2 9) up).rdata = [0, 0, 0, 0, 0, 0, 0, 0] := by
  decide

theorem test_alu_wraps : (after (.alu t0 (rw3 1 0)) (run2 (BitVec.allOnes 64) 2)).thread 0 0 0 = { st := .running, pc := 0x1004, g := [(1, BitVec.allOnes 64), (2, 2), (3, 1)] } := by
  decide

/-! ### Witnesses: states and operands that meet the hypotheses of the statements -/

/-- A device whose T0 stands as given and whose C0 holds the line at 0x1000 in its L1I. -/
def at0 (v : Thread) : State := (up.setThread 0 0 0 v).updCore 0 0 fun x => { x with l1i := [0x1000] }

/-- The same for T0 of C1, which runs. -/
def atC1 : State := (up.setThread 0 1 0 { st := .running, pc := 0x1000 }).updCore 0 1 fun x => { x with l1i := [0x1000] }

/-- T0 runs at the start of the interleaved window with registers g1 and g2. -/
def runs (a b : W64) : State := at0 { st := .running, pc := 0x1000, g := [(1, a), (2, b)] }

/-- T0 waits. -/
def waits (st : ThSt) (x : Wait) : State := at0 { st := st, pc := 0x1004, g := [(1, 5)], wait := x }

/-- I format: rd 3, ra 1. -/
def wi (op imm : Nat) : W32 := iw op (3 * 2 ^ 17 + 1 * 2 ^ 12 + imm)

/-- C format: pd 2, ra 1, rb 2. -/
def wc (cc : Nat) : W32 := iw 0x0A (2 * 2 ^ 19 + cc * 2 ^ 15 + 1 * 2 ^ 10 + 2 * 2 ^ 5)

/-- CMPI: pd 2, ra 1. -/
def wci (cc imm : Nat) : W32 := iw 0x0B (2 * 2 ^ 19 + cc * 2 ^ 15 + 1 * 2 ^ 10 + imm)

/-- A word whose guard names p1, which is 0. -/
def off (w : W32) : W32 := BitVec.ofNat 32 (w.toNat + 1 * 2 ^ 22)

/-- The premises of Issues as one decidable fact. -/
abbrev issuing (s : State) (t : Tid) (w : W32) (op : Nat) : Prop :=
  s.due = [] ∧ ((s.trc 0).phase = .off ∧ (s.trc 1).phase = .off) ∧ (s.th t).st = .running ∧
    (s.fold t.fold.val).clocked = true ∧ s.fetched t = true ∧ opOf w = op ∧ guardHolds (s.th t) w = true

theorem issues_of {s : State} {t : Tid} {w : W32} {op : Nat} (h : issuing s t w op) : Issues s t w op :=
  ⟨h.1, h.2.1, h.2.2.1, h.2.2.2.1, h.2.2.2.2.1, h.2.2.2.2.2.1, h.2.2.2.2.2.2⟩

theorem witness_StepRunsTheFrontCommand : (({ up with pending := [.nop, .clear] } : State)).pending = .nop :: [.clear] := rfl

theorem witness_AluResults : ∀ fn ∈ [0, 1, 2, 3, 4, 5, 8, 9, 0xA, 0xB, 0x10, 0x11, 0x12, 0x18, 0x19, 0x1A, 0x1B],
    Issues (runs 3 70) t0 (rw3 1 fn) 1 ∧ iFn (rw3 1 fn) = fn :=
  have h : ∀ fn ∈ [0, 1, 2, 3, 4, 5, 8, 9, 0xA, 0xB, 0x10, 0x11, 0x12, 0x18, 0x19, 0x1A, 0x1B],
    issuing (runs 3 70) t0 (rw3 1 fn) 1 ∧ iFn (rw3 1 fn) = fn := by decide +kernel
  fun fn m => ⟨issues_of (h fn m).1, (h fn m).2⟩

theorem witness_AluResults_counts : ∀ fn ∈ [0x20, 0x21], Issues (runs 0 0) t0 (wi 1 fn) 1 ∧ iFn (wi 1 fn) = fn ∧ iRb (wi 1 fn) = 0 :=
  have h : ∀ fn ∈ [0x20, 0x21], issuing (runs 0 0) t0 (wi 1 fn) 1 ∧ iFn (wi 1 fn) = fn ∧ iRb (wi 1 fn) = 0 := by decide +kernel
  fun fn m => ⟨issues_of (h fn m).1, (h fn m).2⟩

theorem witness_AluResults_immediate : (∀ op ∈ [2, 3, 4, 5, 7], Issues (runs 3 7) t0 (wi op 0xFFF) op) ∧
    ∀ n ∈ [0, 63, 64, 127, 128, 191, 192, 255], Issues (runs 3 7) t0 (wi 6 n) 6 ∧ iImm12 (wi 6 n) = n :=
  have h : (∀ op ∈ [2, 3, 4, 5, 7], issuing (runs 3 7) t0 (wi op 0xFFF) op) ∧
    ∀ n ∈ [0, 63, 64, 127, 128, 191, 192, 255], issuing (runs 3 7) t0 (wi 6 n) 6 ∧ iImm12 (wi 6 n) = n := by decide +kernel
  ⟨fun op m => issues_of (h.1 op m), fun n m => ⟨issues_of (h.2 n m).1, (h.2 n m).2⟩⟩

theorem witness_PredicateResults : (∀ cc ∈ [0, 1, 2, 3, 4, 5, 6, 7, 8, 9, 0xA, 0xB],
      (Issues (runs 3 7) t0 (wc cc) 0xA ∧ fld (wc cc) 0 5 = 0 ∧ iCc (wc cc) = cc) ∧
      Issues (runs 3 7) t0 (wci cc 0x3FF) 0xB ∧ iCc (wci cc 0x3FF) = cc) ∧
    ∀ fn ∈ [0, 1, 2, 3], Issues (runs 3 7) t0 (iw 0xC (2 ^ 19 + fn * 2 ^ 10)) 0xC ∧
      fld (iw 0xC (2 ^ 19 + fn * 2 ^ 10)) 0 10 = 0 ∧ iPFn (iw 0xC (2 ^ 19 + fn * 2 ^ 10)) = fn :=
  have h : (∀ cc ∈ [0, 1, 2, 3, 4, 5, 6, 7, 8, 9, 0xA, 0xB],
      (issuing (runs 3 7) t0 (wc cc) 0xA ∧ fld (wc cc) 0 5 = 0 ∧ iCc (wc cc) = cc) ∧
      issuing (runs 3 7) t0 (wci cc 0x3FF) 0xB ∧ iCc (wci cc 0x3FF) = cc) ∧
    ∀ fn ∈ [0, 1, 2, 3], issuing (runs 3 7) t0 (iw 0xC (2 ^ 19 + fn * 2 ^ 10)) 0xC ∧
      fld (iw 0xC (2 ^ 19 + fn * 2 ^ 10)) 0 10 = 0 ∧ iPFn (iw 0xC (2 ^ 19 + fn * 2 ^ 10)) = fn := by decide +kernel
  ⟨fun cc m => ⟨⟨issues_of (h.1 cc m).1.1, (h.1 cc m).1.2⟩, issues_of (h.1 cc m).2.1, (h.1 cc m).2.2⟩,
   fun fn m => ⟨issues_of (h.2 fn m).1, (h.2 fn m).2⟩⟩

theorem witness_RegisterFile : (31 : Nat) < 32 ∧ (0 : Nat) < 32 ∧ (7 : Nat) < 8 := by decide +kernel

/-- MFS of selector sel, FENCE of kind k, JR of function fn, EVCNT: no operand field but those the rules name. -/
def ws (op rd sel : Nat) : W32 := iw op (rd * 2 ^ 17 + sel)


theorem witness_ControlFlowAndSpecialRegisters :
    (∀ op ∈ [0x20, 0x21], Issues (runs 3 7) t0 (iw op 0x3FFFFF) op) ∧
    (∀ fn ∈ [0, 1], Issues (runs 3 7) t0 (iw 0x22 (1 * 2 ^ 12 + fn)) 0x22 ∧ iFn (iw 0x22 (1 * 2 ^ 12 + fn)) = fn ∧
      iRd (iw 0x22 (1 * 2 ^ 12 + fn)) = 0 ∧ iRb (iw 0x22 (1 * 2 ^ 12 + fn)) = 0) ∧
    (∀ sel ∈ [0, 1, 2, 3, 4, 0x10, 0x11, 0x20], Issues (runs 3 7) t0 (ws 0x39 3 sel) 0x39 ∧ iRa (ws 0x39 3 sel) = 0 ∧
      iSel (ws 0x39 3 sel) = sel) ∧
    (runs 3 7).logicalOf 0 = some 0 :=
  have h : (∀ op ∈ [0x20, 0x21], issuing (runs 3 7) t0 (iw op 0x3FFFFF) op) ∧
    (∀ fn ∈ [0, 1], issuing (runs 3 7) t0 (iw 0x22 (1 * 2 ^ 12 + fn)) 0x22 ∧ iFn (iw 0x22 (1 * 2 ^ 12 + fn)) = fn ∧
      iRd (iw 0x22 (1 * 2 ^ 12 + fn)) = 0 ∧ iRb (iw 0x22 (1 * 2 ^ 12 + fn)) = 0) ∧
    (∀ sel ∈ [0, 1, 2, 3, 4, 0x10, 0x11, 0x20], issuing (runs 3 7) t0 (ws 0x39 3 sel) 0x39 ∧ iRa (ws 0x39 3 sel) = 0 ∧
      iSel (ws 0x39 3 sel) = sel) ∧
    (runs 3 7).logicalOf 0 = some 0 := by decide +kernel
  ⟨fun op m => issues_of (h.1 op m), fun fn m => ⟨issues_of (h.2.1 fn m).1, (h.2.1 fn m).2⟩,
   fun sel m => ⟨issues_of (h.2.2.1 sel m).1, (h.2.2.1 sel m).2⟩, h.2.2.2⟩

theorem witness_ControlFlowAndSpecialRegisters_rest :
    (Issues (runs 3 7) t0 (ws 0x34 3 0xFC0) 0x34 ∧ iRa (ws 0x34 3 0xFC0) = 0 ∧ iN (ws 0x34 3 0xFC0) = 0) ∧
    (Issues (runs 3 7) t0 (ws 0x3A 0 5) 0x3A ∧ iRd (ws 0x3A 0 5) = 0) ∧
    (∀ k ∈ [0, 1, 2], Issues (runs 3 7) t0 (ws 0x38 0 k) 0x38 ∧ iRd (ws 0x38 0 k) = 0 ∧ iRa (ws 0x38 0 k) = 0 ∧
      iSel (ws 0x38 0 k) = k) ∧ ((runs 3 7).core 0 0).sb = [] :=
  have h : (issuing (runs 3 7) t0 (ws 0x34 3 0xFC0) 0x34 ∧ iRa (ws 0x34 3 0xFC0) = 0 ∧ iN (ws 0x34 3 0xFC0) = 0) ∧
    (issuing (runs 3 7) t0 (ws 0x3A 0 5) 0x3A ∧ iRd (ws 0x3A 0 5) = 0) ∧
    (∀ k ∈ [0, 1, 2], issuing (runs 3 7) t0 (ws 0x38 0 k) 0x38 ∧ iRd (ws 0x38 0 k) = 0 ∧ iRa (ws 0x38 0 k) = 0 ∧
      iSel (ws 0x38 0 k) = k) ∧ ((runs 3 7).core 0 0).sb = [] := by decide +kernel
  ⟨⟨issues_of h.1.1, h.1.2⟩, ⟨issues_of h.2.1.1, h.2.1.2⟩,
   fun k m => ⟨issues_of (h.2.2.1 k m).1, (h.2.2.1 k m).2⟩, h.2.2.2⟩

/-- A core whose T7 issued last and whose T0 and T7 are READY: index 0 after T7 is T0. -/
def idleCore : Core := { threads := [(0, { st := .ready }), (7, { st := .ready })], last := 7 }

theorem witness_CoreSchedulesInTurn :
    (∃ p ∈ ((runs 0 0).core 0 0).threads, p.2.st = .running) ∧ (∀ k, k < 8 → (SMap.get {} ({} : Core).threads k).st ≠ .ready) ∧
    (∀ p ∈ idleCore.threads, p.2.st ≠ .running) ∧ (SMap.get {} idleCore.threads ((idleCore.last + 1 + 0) % 8)).st = .ready := by
  decide +kernel


theorem witness_WordsNotExecuted_guard : Settled (runs 3 7) ∧ Untraced (runs 3 7) ∧ ((runs 3 7).th t0).st = .running ∧
    ((runs 3 7).fold 0).clocked = true ∧
    ([rw3 1 0x20, wi 2 0, wi 7 0, wc 0xB, wi 0x10 0, wi 0x1B 0, rw3 0x1C 9, iw 0x20 0, rw3 0x28 63, iw 0x29 0, iw 0x30 0,
      iw 0x31 1, iw 0x32 1, iw 0x38 2, iw 0x39 0x20, iw 0x3A 0].all fun w => !guardHolds ((runs 3 7).th t0) (off w)) := by
  decide +kernel

theorem witness_WordsNotExecuted_fault : Settled (runs 3 7) ∧ (runs 3 7).jobLive = false ∧ listedOp (opOf (iw 0x3F 0)) = false ∧
    listedOp (opOf (0 : W32)) = false ∧ ((runs 3 7).th t0).wait = .none ∧
    bit ((runs 3 7).core 0 0).regs.thrFault 11 = false := by
  decide +kernel

/-- A core of T0 with one L1D line of the interleaved window. -/
def lineUp : State := (runs 0x1000 9).updCore 0 0 fun x => { x with l1d := [⟨0x1000, 0, List.replicate 64 0x81, false⟩] }

theorem witness_Loads : (∀ op ∈ [0x10, 0x11, 0x12, 0x13, 0x14, 0x15, 0x16], Issues (runs 0x1000 9) t0 (wi op 0) op) ∧
    Issues (runs 0x1000 9) t0 (wi 8 0) 8 ∧
    (runs 0x1000 9).accessFault t0 .read 0x1000 8 = .ok ∧ isRegSpace 0x1000 = false ∧ (runs 0 0).l1dHit 0 0 0x1000 = none ∧
    (runs 0 0).accessFault t0 .read (BitVec.ofNat 64 hubBase) 8 = .ok ∧ isRegSpace hubBase = true ∧
    lineUp.l1dHit 0 0 0x1000 = some ⟨0x1000, 0, List.replicate 64 0x81, false⟩ :=
  have h : (∀ op ∈ [0x10, 0x11, 0x12, 0x13, 0x14, 0x15, 0x16], issuing (runs 0x1000 9) t0 (wi op 0) op) ∧
    issuing (runs 0x1000 9) t0 (wi 8 0) 8 ∧
    (runs 0x1000 9).accessFault t0 .read 0x1000 8 = .ok ∧ isRegSpace 0x1000 = false ∧ (runs 0 0).l1dHit 0 0 0x1000 = none ∧
    (runs 0 0).accessFault t0 .read (BitVec.ofNat 64 hubBase) 8 = .ok ∧ isRegSpace hubBase = true ∧
    lineUp.l1dHit 0 0 0x1000 = some ⟨0x1000, 0, List.replicate 64 0x81, false⟩ := by decide +kernel
  ⟨fun op m => issues_of (h.1 op m), issues_of h.2.1, h.2.2⟩

/-- A full store buffer. -/
def sbFull : State := (runs 0x1000 9).updCore 0 0 fun x => { x with sb := List.replicate 16 ⟨0, 0x2000, 8, 1⟩ }

theorem witness_StoresAndAtomics : (∀ k ∈ [0, 1, 2, 3], Issues (runs 0x1000 9) t0 (wi (0x18 + k) 0) (0x18 + k) ∧
      (runs 0x1000 9).accessFault t0 .write 0x1000 (2 ^ k) = .ok) ∧
    (runs 0 0).accessFault t0 .write (BitVec.ofNat 64 hubBase) 8 = .ok ∧ isRegSpace hubBase = true ∧
    isRegSpace 0x1000 = false ∧ ((runs 0x1000 9).core 0 0).sb.length < 16 ∧
    (Issues sbFull t0 (wi 0x1B 0) 0x1B ∧ 16 ≤ (sbFull.core 0 0).sb.length) ∧
    ∀ fn ∈ [0, 9], Issues (runs 0x1000 9) t0 (rw3 0x1C fn) 0x1C ∧ iFn (rw3 0x1C fn) ≤ 9 :=
  have h : (∀ k ∈ [0, 1, 2, 3], issuing (runs 0x1000 9) t0 (wi (0x18 + k) 0) (0x18 + k) ∧
      (runs 0x1000 9).accessFault t0 .write 0x1000 (2 ^ k) = .ok) ∧
    (runs 0 0).accessFault t0 .write (BitVec.ofNat 64 hubBase) 8 = .ok ∧ isRegSpace hubBase = true ∧
    isRegSpace 0x1000 = false ∧ ((runs 0x1000 9).core 0 0).sb.length < 16 ∧
    (issuing sbFull t0 (wi 0x1B 0) 0x1B ∧ 16 ≤ (sbFull.core 0 0).sb.length) ∧
    ∀ fn ∈ [0, 9], issuing (runs 0x1000 9) t0 (rw3 0x1C fn) 0x1C ∧ iFn (rw3 0x1C fn) ≤ 9 := by decide +kernel
  ⟨fun k m => ⟨issues_of (h.1 k m).1, (h.1 k m).2⟩, h.2.1, h.2.2.1, h.2.2.2.1, h.2.2.2.2.1,
   ⟨issues_of h.2.2.2.2.2.1.1, h.2.2.2.2.2.1.2⟩, fun fn m => ⟨issues_of (h.2.2.2.2.2.2 fn m).1, (h.2.2.2.2.2.2 fn m).2⟩⟩

/-- SPAWN of thread u by T0 of C0: rd 3, ra 1, rb 2. -/
theorem witness_SpawnHaltYield : (Issues (runs 0x2000 9) t0 (rw3 0x28 63) 0x28 ∧ iFn (rw3 0x28 63) < 64 ∧
      ((runs 0x2000 9).thread 0 7 7).st = .idle) ∧
    (Issues (runs 0x2000 9) t0 (rw3 0x28 0) 0x28 ∧ ((runs 0x2000 9).thread 0 0 0).st ≠ .idle) ∧
    (Issues atC1 ⟨0, 1, 0⟩ (rw3 0x28 0) 0x28) ∧
    ∀ op ∈ [0x29, 0x2A], Issues (runs 0 0) t0 (iw op 0) op ∧ iRd (iw op 0) = 0 ∧ iRa (iw op 0) = 0 ∧ iSel (iw op 0) = 0 :=
  have h : (issuing (runs 0x2000 9) t0 (rw3 0x28 63) 0x28 ∧ iFn (rw3 0x28 63) < 64 ∧
      ((runs 0x2000 9).thread 0 7 7).st = .idle) ∧
    (issuing (runs 0x2000 9) t0 (rw3 0x28 0) 0x28 ∧ ((runs 0x2000 9).thread 0 0 0).st ≠ .idle) ∧
    (issuing atC1 ⟨0, 1, 0⟩ (rw3 0x28 0) 0x28) ∧
    ∀ op ∈ [0x29, 0x2A], issuing (runs 0 0) t0 (iw op 0) op ∧ iRd (iw op 0) = 0 ∧ iRa (iw op 0) = 0 ∧ iSel (iw op 0) = 0 := by decide +kernel
  ⟨⟨issues_of h.1.1, h.1.2⟩, ⟨issues_of h.2.1.1, h.2.1.2⟩, issues_of h.2.2.1,
   fun op m => ⟨issues_of (h.2.2.2 op m).1, (h.2.2.2 op m).2⟩⟩

/-! ### Descriptors in memory -/

/-- The state with words at an address. -/
def poked (s : State) (a : Nat) (ws : List W64) : State := { s with mem := putBytes s.mem a (wordsBytes ws) }

/-- A header of a type, version 1, with further bits. -/
def hdr (type more : Nat) : W64 := BitVec.ofNat 64 (type + 256 + more)

/-- A tensor descriptor of two dimensions: format, layout, line axis, base, extents, stride of dimension 1. -/
def tensor (fmt layout axis base d0 d1 stride : Nat) : List W64 :=
  [hdr 1 0, put 0 48 base ||| put 48 8 fmt ||| put 56 4 layout ||| put 60 1 axis ||| put 61 3 2,
   put 0 32 d0 ||| put 32 32 d1, 0, put 0 48 stride, 0, 0, 0]

/-- A matmul of one row, column and product, ACC_INIT and NOGATE on array 0 (R125), with further bits of word 0. -/
def mm1 (more : Nat) : List W64 := [hdr 0x10 (2 ^ 12 + 2 ^ 15 + more), 0x40, 0x80, 0, 0, put 0 11 1 ||| put 16 8 1 ||| put 32 32 1, 0, 0]

/-- A and W of it, of INT8, in fold store 0; A[0][0] = 3 and W[0][0] = −6. -/
def mmMem (s : State) : State :=
  (poked (poked (poked (poked s 0x40 (tensor 0x10 1 0 foldBase 1 1 0)) 0x80 (tensor 0x10 1 1 (foldBase + 0x10000) 1 1 0))
    foldBase [3]) (foldBase + 0x10000) [0xFA])

/-- The matmul as its queue holds it. -/
def mmIss (more : Nat) (gate : Option Nat) : Issued :=
  { addr := 0, words := mm1 more, subs := [tensor 0x10 1 0 foldBase 1 1 0, tensor 0x10 1 1 (foldBase + 0x10000) 1 1 0], gate := gate }

/-- T0 waits for the matmul queue's answer to a descriptor at address 0. -/
def mmWait (d : List W64) : State :=
  mmMem (poked ((waits .waitIssue (.issue 0 0 3))) 0 d)

/-- A stream descriptor: LOAD of 32 elements of FP32 from the interleaved window into the fold store (R285). -/
def st1 (more w7 : Nat) : List W64 := [hdr 0x30 more, 0x40, 0x80, 0, 0, put 0 32 32 ||| put 32 32 1, 0, BitVec.ofNat 64 w7]
def stSub : List (List W64) := [tensor 1 0 0 0x1000 32 1 128, tensor 1 0 0 foldBase 32 1 128]
def stIss (more w7 : Nat) (gate : Option Nat) : Issued := { words := st1 more w7, subs := stSub, gate := gate }

/-- The chain that copies one element of FP32 (stage 0x01 of IN0): program and tensors (R146, R150). -/
def ch1 (more : Nat) : List W64 := [hdr 0x20 more, put 0 48 0x40 ||| put 48 4 1, 0x80, 0, 0, 0xC0, 0, put 0 32 1 ||| put 32 32 1]
def chSub : List (List W64) := [[hdr 0x21 0, 1, 0, 0, 0, 0, 0, 0], tensor 1 0 0 foldBase 1 1 128, [], [], tensor 1 0 0 (foldBase + 0x10000) 1 1 128]
def chIss (gate : Option Nat) : Issued := { words := ch1 0, subs := chSub, gate := gate }

/-- T0 waits for a queue's answer to a chain, a stream. -/
def chWait : State :=
  poked (poked (poked (poked (poked (waits .waitIssue (.issue 0 0x400 3)) 0 (ch1 0)) 0x40 (chSub.getD 0 [])) 0x80 (chSub.getD 1 []))
    0xC0 (chSub.getD 4 [])) foldBase [0x40490FDB]
def stWait : State :=
  poked (poked (poked (poked (waits .waitIssue (.issue 0 0x800 3)) 0 (st1 0 0)) 0x40 (stSub.getD 0 [])) 0x80 (stSub.getD 1 []))
    0x1000 (List.replicate 16 0x1122334455667788)

/-- The check an ISSUE that waits meets. -/
def checkOf (s : State) (t : Tid) : Status :=
  match (s.th t).wait with
  | .issue addr efld _ => s.issueCheck t.fold.val t.core.val (iTgt (BitVec.ofNat 32 efld)) (iG (BitVec.ofNat 32 efld)) addr (s.blockWords addr)
  | _ => .busy

/-- A device whose matmul queue is full. -/
def matFull : State := (runs 0 0).updFold 0 fun v => { v with matQ := List.replicate 16 (mmIss 0 none) }

theorem witness_Issue : (Issues (runs 0 0) t0 (wi 0x30 0) 0x30 ∧ fld (wi 0x30 0) 6 2 = 0 ∧ ((runs 0 0).core 0 0).sb = [] ∧
      (iNB (wi 0x30 0) && (runs 0 0).queueFull 0 0 0) = false) ∧
    (Issues matFull t0 (wi 0x30 0x200) 0x30 ∧ (matFull.core 0 0).sb = [] ∧ (iNB (wi 0x30 0x200) && matFull.queueFull 0 0 0) = true) ∧
    (sbFull.ue = [] ∧ Issues sbFull t0 (wi 0x30 0) 0x30 ∧ iNB (wi 0x30 0) = false) :=
  have h : (issuing (runs 0 0) t0 (wi 0x30 0) 0x30 ∧ fld (wi 0x30 0) 6 2 = 0 ∧ ((runs 0 0).core 0 0).sb = [] ∧
      (iNB (wi 0x30 0) && (runs 0 0).queueFull 0 0 0) = false) ∧
    (issuing matFull t0 (wi 0x30 0x200) 0x30 ∧ (matFull.core 0 0).sb = [] ∧ (iNB (wi 0x30 0x200) && matFull.queueFull 0 0 0) = true) ∧
    (sbFull.ue = [] ∧ issuing sbFull t0 (wi 0x30 0) 0x30 ∧ iNB (wi 0x30 0) = false) := by decide +kernel
  ⟨⟨issues_of h.1.1, h.1.2⟩, ⟨issues_of h.2.1.1, h.2.1.2⟩, h.2.2.1, issues_of h.2.2.2.1, h.2.2.2.2⟩

theorem witness_Issue_done : Settled (mmWait (mm1 0)) ∧ Untraced (mmWait (mm1 0)) ∧ (mmWait (mm1 0)).ue = [] ∧
    ((mmWait (mm1 0)).fold 0).clocked = true ∧ (mmWait (mm1 0)).queueFull 0 0 0 = false ∧ ((mmWait (mm1 0)).th t0).wait = .issue 0 0 3 ∧
    checkOf (mmWait (mm1 0)) t0 = .ok ∧ checkOf (mmWait [hdr 0x10 (2 ^ 31)]) t0 = .reservedNonzero := by decide +kernel

/-- A matmul that has started; A and W are in fold store 0. -/
def mmRuns (more : Nat) (spec : Bool) (pend : List (Nat × Bool)) : State :=
  ({ up with mem := putBytes (putBytes [] foldBase [3]) (foldBase + 0x10000) [0xFA] } : State).updFold 0 fun v => { v with
    matRun := [{ d := mmIss more none, useSpec := spec, skipped := 0, miss := 0, pending := pend }], halves := [(0, { st := .filling })] }

/-- R71, R127: 3 × (−6) = −18 in the one element, and the half is FULL. -/
theorem test_matmul : (let s := after (.matmulComplete 0) (mmRuns 0 false [])
    s.accAt 0 0 = 0xFFFFFFEE ∧ s.half 0 0 0 = { st := .full }) := by decide +kernel

/-- A core whose chain is in flight. -/
def chRuns : State :=
  ({ up with mem := putBytes [] foldBase [0xDB, 0x0F, 0x49, 0x40] } : State).updCore 0 0 fun x => { x with inflight := [⟨chIss none, 0⟩] }

/-- A chain of stage MOV copies its element. -/
theorem test_chain : (after (.chainComplete 0 0 false) chRuns).wordAt (foldBase + 0x10000) = 0x40490FDB := by decide +kernel

/-- A watched stream whose context is 2. -/
def stRuns (x : Ctx) : State :=
  ({ up with mem := putBytes [] 0x1078 [1, 2, 3, 4] } : State).setCtx 0 2 (some x)
def stCtx : Ctx := { d := stIss 0 0 none, watched := [3] }

/-- R284: data moves as the piece is released, by its seal. -/
theorem test_stream : (after (.sealReply 0 2) (stRuns stCtx)).wordAt (foldBase + 0x78) = 0x04030201 := by decide +kernel

/-- T0 waits on slot 5, alone, with a timeout. -/
def evWait : State := (waits .waitEvent (.event 5 1 3 0 (some 100))).setSlot 0 5 { waiters := [.thread 0 0 1] }

theorem witness_Events : (Issues ((runs 0 0).setSlot 0 5 { count := 3 }) t0 (iw 0x31 (3 * 2 ^ 17 + 5 * 64 + 3)) 0x31 ∧
      iN (iw 0x31 (3 * 2 ^ 17 + 5 * 64 + 3)) = 3 ∧ iSlot (iw 0x31 (3 * 2 ^ 17 + 5 * 64 + 3)) = 5 ∧ ((runs 0 0).slot 0 5).waiters = []) ∧
    (Issues (runs 7 0) t0 (wi 0x31 1) 0x31 ∧ ((runs 7 0).slot 0 0).count < iN (wi 0x31 1) ∧
      Waiter.thread 0 0 1 ∉ ((runs 7 0).slot 0 0).waiters ∧ ((runs 7 0).rg t0 (iRa (wi 0x31 1))).toNat = 7) ∧
    (Settled evWait ∧ Untraced evWait ∧ (evWait.th t0).wait = .event 5 1 3 0 (some 100) ∧
      (evWait.slot 0 5).waiters = [.thread 0 0 1]) :=
  have h : (issuing ((runs 0 0).setSlot 0 5 { count := 3 }) t0 (iw 0x31 (3 * 2 ^ 17 + 5 * 64 + 3)) 0x31 ∧
      iN (iw 0x31 (3 * 2 ^ 17 + 5 * 64 + 3)) = 3 ∧ iSlot (iw 0x31 (3 * 2 ^ 17 + 5 * 64 + 3)) = 5 ∧ ((runs 0 0).slot 0 5).waiters = []) ∧
    (issuing (runs 7 0) t0 (wi 0x31 1) 0x31 ∧ ((runs 7 0).slot 0 0).count < iN (wi 0x31 1) ∧
      Waiter.thread 0 0 1 ∉ ((runs 7 0).slot 0 0).waiters ∧ ((runs 7 0).rg t0 (iRa (wi 0x31 1))).toNat = 7) ∧
    (Settled evWait ∧ Untraced evWait ∧ (evWait.th t0).wait = .event 5 1 3 0 (some 100) ∧
      (evWait.slot 0 5).waiters = [.thread 0 0 1]) := by decide +kernel
  ⟨⟨issues_of h.1.1, h.1.2⟩, ⟨issues_of h.2.1.1, h.2.1.2⟩, h.2.2⟩

theorem witness_Events_signals : ((runs 0 0).core 0 0).sb = [] ∧ ((runs 0 0).slot 0 63).waiters = [] ∧
    Issues (runs 0 0) t0 (iw 0x32 (3 * 2 ^ 17 + 0xFFF)) 0x32 ∧ iRa (iw 0x32 (3 * 2 ^ 17 + 0xFFF)) = 0 ∧
    (∀ a ∈ [0, 319, 320, 4096, 7 * 4096, 65536, 2 ^ 18], Issues (runs (BitVec.ofNat 64 a) 0) t0 (wi 0x33 1) 0x33) ∧
    (runs 4096 0).inSvc 0 = false ∧ ((runs 0 0).fold ((runs 0 0).physOf 319)).island.graze = false ∧ iN (wi 0x33 1) ≠ 0 :=
  have h : ((runs 0 0).core 0 0).sb = [] ∧ ((runs 0 0).slot 0 63).waiters = [] ∧
    issuing (runs 0 0) t0 (iw 0x32 (3 * 2 ^ 17 + 0xFFF)) 0x32 ∧ iRa (iw 0x32 (3 * 2 ^ 17 + 0xFFF)) = 0 ∧
    (∀ a ∈ [0, 319, 320, 4096, 7 * 4096, 65536, 2 ^ 18], issuing (runs (BitVec.ofNat 64 a) 0) t0 (wi 0x33 1) 0x33) ∧
    (runs 4096 0).inSvc 0 = false ∧ ((runs 0 0).fold ((runs 0 0).physOf 319)).island.graze = false ∧ iN (wi 0x33 1) ≠ 0 := by decide +kernel
  ⟨h.1, h.2.1, issues_of h.2.2.1, h.2.2.2.1, fun a m => issues_of (h.2.2.2.2.1 a m), h.2.2.2.2.2⟩

/-- The largest COUNT: an addition sets OVF and leaves 65,535 (R225). -/
theorem test_evsig_saturates :
    (after (.evsig t0 (iw 0x32 5)) ((runs 0 0).setSlot 0 0 { count := 65533 })).slot 0 0 = { count := 65535, ovf := true } := by
  decide +kernel

theorem witness_MemoryCompletions :
    (∀ s ∈ [waits .waitMem (.load 0x1000 8 3 true), waits .waitMem (.amo foldBase 1 2 0 3), waits .waitFence (.fence 1), waits .waitFence (.fence 0),
        waits .waitMem (.regWrite (fregBase + fregSlot * 0 + 0x22C0 + 8 * 0) 7), waits .waitMem (.regRead (fregBase + fregSlot * 0 + 0x22C0 + 8 * 0) 3)],
      Settled s ∧ Untraced s ∧ s.ue = [] ∧ (s.fold 0).clocked = true ∧ (s.fold 0).fcSize = 0 ∧ (s.core 0 0).sb = [] ∧
      (s.th t0).wait ≠ .none) ∧
    (let s := (runs 0 0)
     (s.th t0).st = .running ∧ s.accStatus 1024 .fetch (s.th t0).pc.toNat 4 = .bounds) ∧
    (let s := at0 { st := .running, pc := BitVec.ofNat 48 foldBase }
     (s.th t0).st = .running ∧ s.accStatus 1024 .fetch (s.th t0).pc.toNat 4 = .ok) ∧
    (sbFull.core 0 0).sb = ⟨0, 0x2000, 8, 1⟩ :: List.replicate 15 ⟨0, 0x2000, 8, 1⟩ ∧ (sbFull.core 0 0).storeWaiter = none := by
  decide +kernel

/-- R235: the old value goes to rd, the sum to memory. -/
theorem test_amo : (let s := after (.amoReturn t0) (poked (waits .waitMem (.amo foldBase 1 2 0 3)) foldBase [40])
    s.readWord foldBase = 42 ∧ s.rg t0 3 = 40) := by decide +kernel

/-- R215: sign extension of a loaded byte. -/
theorem test_load_sign : (after (.loadDataReturn t0 [] false false) ({ waits .waitMem (.load 0x1007 1 3 true) with mem := putBytes [] 0x1007 [0x80] })).rg t0 3
    = BitVec.allOnes 64 - 127 := by decide +kernel

/-! ### Witnesses: registers, matrix and vector engines, streams, memory errors -/

theorem witness_FoldReadsThatClear : Settled up ∧ up.hubOn = true ∧ up.host.ready = true ∧ up.inService 0 = true ∧
    up.inService 335 = false := by decide +kernel
theorem witness_DeviceReadsThatClear : Settled up ∧ up.hubOn = true ∧ up.host.ready = true := by decide +kernel


/-- R41, R486: F335 serves no logical fold of the fuse map. -/
theorem test_read_of_no_fold : (after (.strErrRead 1 335) up).rdata = List.replicate 8 0xFF ∧
    (after (.strErrRead 1 335) up).host.regs.boundsCnt = 1 := by decide +kernel

/-- R565: the minimum restarts at 0xFFFF. -/
theorem test_supply_read : (after (.pwrSupplyRead 1) { up with pwr := { vinMin := 40000, filtered := 48000, pIn := 90 } }).rdata
      = [0x80, 0xBB, 0x40, 0x9C, 90, 0, 0, 0] ∧
    (after (.pwrSupplyRead 1) { up with pwr := { vinMin := 40000 } }).pwr.vinMin = 0xFFFF := by decide +kernel

theorem witness_RegisterWrites : Settled up ∧ State.reset.host.ready = false ∧ State.reset.hubOn = false ∧
    (0x800 : W64).getLsbD 11 = true ∧ (0x800 : W64).getLsbD 50 = false ∧ (2 ^ 24 : W64).getLsbD 24 = true := by decide +kernel

/-- A fold whose matmul queue holds one descriptor, and slot 5 of which has a count for it. -/
def mmQ (more : Nat) (gate : Option Nat) : State :=
  (up.updFold 0 fun v => { v with matQ := [mmIss more gate] }).setSlot 0 5 { count := 1, waiters := [.gateMxa] }

theorem witness_MatmulStarts : ∀ s ∈ [mmQ 0 none, mmQ 0 (some 5), mmQ (2 ^ 14) none],
    Settled s ∧ Untraced s ∧ (s.fold 0).matQ.length = 1 ∧ (s.fold 0).clocked = true ∧ (s.half 0 0 0).st = .empty ∧
    (s.slot 0 5).waiters = [.gateMxa] ∧ 1 ≤ (s.slot 0 5).count ∧ (s.fold 0).regs.specEn = true ∧ (s.fold 0).matRun = [] := by
  decide +kernel

theorem witness_MatmulStarts_spec : mmSpec (mm1 (2 ^ 14)) = true ∧ mmArrays (mm1 (2 ^ 14)) = [(0, 0, 1)] ∧
    (mmIss 0 (some 5)).gate = some 5 := by decide +kernel

/-- A BF16 matmul with NOGATE and K = 128. -/
def mmBf : Issued :=
  { words := [hdr 0x10 (2 ^ 13 + 2 ^ 15), 0x40, 0x80, 0, 0, put 0 11 1 ||| put 16 8 1 ||| put 32 32 128, 0, 0],
    subs := [tensor 2 1 0 foldBase 128 1 0, tensor 2 1 1 (foldBase + 0x10000) 1 128 0] }

theorem witness_MatmulCompletes : Settled (mmRuns 0 false []) ∧ Untraced (mmRuns 0 false []) ∧ (mmRuns 0 false []).ue = [] ∧
    ((mmRuns 0 false []).fold 0).clocked = true ∧ mmPair (mmA (mmIss 0 none)).format (mmW (mmIss 0 none)).format = some (.int, 128) ∧
    mmNW (mm1 0) ≤ 128 ∧ (∀ a ∈ mmArrays (mm1 0), mmRow0 (mm1 0) + a.2.2 ≤ 512) ∧ mmEvtEn (mm1 (2 ^ 17)) = true ∧
    ((mmRuns 0 false []).slot 0 0).waiters = [] ∧
    mmPair (mmA mmBf).format (mmW mmBf).format = some (.direct, 128) ∧ mmNogate mmBf.words = true ∧ mmK mmBf.words % 128 = 0 := by
  decide +kernel

/-- A matmul that waits for group 0, and the demand entry whose LOAD holds it. -/
def mmWaits : State := (mmRuns (2 ^ 14) true [(0, true)]).updFold 0 fun v => { v with demand := [{ slot := 0, mask := 1, d := stIss 0 0 none }] }

theorem witness_MatmulCompletes_demand : Settled mmWaits ∧ Untraced mmWaits ∧ mmWaits.ue = [] ∧ (mmWaits.fold 0).clocked = true ∧
    ((mmWaits.fold 0).matRun.head?.map (·.pending)) = some [(0, true)] ∧ (mmWaits.fold 0).demand.length = 1 ∧
    mmSlot (mm1 (2 ^ 14)) = 0 ∧ stKind (st1 0 0) = kLOAD ∧ (2 : W64).getLsbD 1 = true := by decide +kernel

/-- A core whose chain queue holds one chain, gated on slot 5 or not. -/
def chQ (gate : Option Nat) : State :=
  (up.updCore 0 0 fun x => { x with chainQ := [chIss gate], regs := { x.regs with cbCtl := put 28 8 1 } }).setSlot 0 5 { count := 1, waiters := [.gateVec 0] }

/-- A chain that reads half 0 of array 0. -/
def chAcc : List W64 := ch1 (2 ^ 12)

theorem witness_ChainStarts : ∀ s ∈ [chQ none, chQ (some 5)], Settled s ∧ Untraced s ∧ (s.core 0 0).chainQ.length = 1 ∧
    (s.fold 0).clocked = true ∧ (s.core 0 0).inflight.length < 2 ∧
    usesPrev (stagesOf (chSub.getD 0 []) (chNstg (ch1 0))) = false ∧ (s.slot 0 5).waiters = [.gateVec 0] ∧ 1 ≤ (s.slot 0 5).count := by
  decide +kernel

theorem witness_ChainStarts_half : chSrcAcc chAcc = true ∧ chArr chAcc = 0 ∧ chHalf chAcc = 0 ∧
    ((up.setHalf 0 0 0 { st := .full }).half 0 0 0).st = .full := by decide +kernel

/-- R170: the armed table 0 switches banks as a chain starts. -/
theorem test_chain_switches_banks : ((after (.chainStart 0 0) (chQ none)).core 0 0).cbBanks = 1 ∧
    fld ((after (.chainStart 0 0) (chQ none)).core 0 0).regs.cbGen 0 8 = 1 := by decide +kernel

/-- A codebook load of table 7 that copies. -/
def cbUp : State := up.updCore 0 0 fun x => { x with cbLoad := some ⟨7, 0x400, true⟩ }

theorem witness_ChainCompletes : Settled chRuns ∧ Untraced chRuns ∧ chRuns.ue = [] ∧ (chRuns.core 0 0).inflight[0]?.isSome = true ∧
    (chRuns.fold 0).clocked = true ∧ (chRuns.slot 0 0).waiters = [] ∧ chEvtEn (ch1 (2 ^ 14)) = true ∧ chSrcAcc chAcc = true ∧
    (2 ^ 25 : W64).getLsbD 25 = true ∧ (cbUp.core 0 0).cbLoad = some ⟨7, 0x400, true⟩ ∧ (cbUp.core 0 0).cbBanks < 256 ∧
    (up.core 0 0).cbLoad = none ∧ up.inService 0 = true := by decide +kernel

/-- The stream queue holds one LOAD, gated on slot 5 or not. -/
def stQ (gate : Option Nat) : State :=
  (up.updFold 0 fun v => { v with strQ := [stIss 0 0 gate] }).setSlot 0 5 { count := 1, waiters := [.gateStr] }

theorem witness_StreamStarts : ∀ s ∈ [stQ none, stQ (some 5)], Settled s ∧ Untraced s ∧ s.ue = [] ∧ (s.fold 0).strQ.length = 1 ∧
    s.freeCtx 0 = some 0 ∧ (s.fold 0).clocked = true ∧ (s.slot 0 5).waiters = [.gateStr] ∧ 1 ≤ (s.slot 0 5).count := by
  decide +kernel

theorem witness_StreamStarts_kind : hdrType (st1 0 0) = 0x30 ∧ stRing (st1 0 0) = false ∧ stKind (st1 0 0) ≠ kSEND ∧
    stSkip (st1 0 0) = false ∧ stEarly (st1 0 0) = false ∧ stKind (st1 0 0) ≠ kSTORE ∧ isInter (stSrc (stIss 0 0 none)).base = true ∧
    (up.die 19).watch.length < 512 := by decide +kernel

theorem witness_StreamReleasesAndCompletes : (∀ x ∈ [stCtx, { stCtx with watched := [] }, { stCtx with released := 1 }],
      Settled (stRuns x) ∧ Untraced (stRuns x) ∧ (stRuns x).ue = [] ∧ (stRuns x).ctx 0 2 = some x ∧ x.gateOpen = true ∧
      ((stRuns x).fold 0).clocked = true ∧ x.d.gate = none ∧ x.status = 0 ∧ ((stRuns x).slot 0 0).waiters = []) ∧
    0 < stNY (st1 0 0) ∧ stEvtEn (st1 (2 ^ 15) 0) = true ∧ stCtx.watched ≠ [] := by decide +kernel

/-- A ring of two pieces of 32 rows that carries 96 rows: one piece needs a credit; CRED is slot 9. -/
def ringIss : Issued :=
  { words := [hdr 0x30 (2 ^ 16), 0x40, 0x80, 0, 0, put 0 32 32 ||| put 32 32 96, 0, put 8 6 9 ||| put 16 12 32],
    subs := [tensor 1 0 0 0x1000 32 96 128, tensor 1 0 0 foldBase 32 64 128] }
def ringCtx : Ctx := { d := ringIss, watched := [3] }
def gateCtx : Ctx := { d := stIss (2 ^ 17) 0 (some 9), watched := [3], gateOpen := false }

/-- A SEND with EVT_EN on port 0, its piece sent. -/
def sendCtx : Ctx := { d := stIss (3 * 2 ^ 12 + 2 ^ 15) (2 ^ 40) none, released := 1 }

theorem witness_StreamProgress :
    (let s := (stRuns ringCtx).setSlot 0 9 { count := 1, waiters := [.cred 2] }
     Settled s ∧ Untraced s ∧ s.ctx 0 2 = some ringCtx ∧ hdrType ringIss.words = 0x30 ∧ (s.fold 0).clocked = true ∧
     stRing ringIss.words = true ∧ ringCtx.credits + stRingLen ringIss < stPieces ringIss.words ∧
     (s.slot 0 (stCred ringIss.words)).waiters = [.cred 2] ∧ 1 ≤ (s.slot 0 (stCred ringIss.words)).count ∧
     ringCtx.released < stPieces ringIss.words) ∧
    (let s := (stRuns gateCtx).setSlot 0 9 { count := 1, waiters := [.gateCtx 2] }
     s.ctx 0 2 = some gateCtx ∧ gateCtx.d.gate = some 9 ∧ (s.slot 0 9).waiters = [.gateCtx 2] ∧ 1 ≤ (s.slot 0 9).count) ∧
    (let s := stRuns sendCtx
     s.ctx 0 2 = some sendCtx ∧ stKind sendCtx.d.words = kSEND ∧ sendCtx.acked < sendCtx.released ∧
     (s.port (stRoute sendCtx.d.words - 1)).holds (0, 2, sendCtx.acked) = false ∧ stEvtEn sendCtx.d.words = true ∧
     (s.slot 0 (stEvt sendCtx.d.words)).waiters = []) := by decide +kernel

/-- A gather (0x31) or scatter (0x32) of one index, which is x, into a table of four rows (R309). -/
def gsIss (type strict : Nat) : Issued :=
  { words := [hdr type 0, 0x40, 0x80, 0xC0, put 32 32 32, 0, 0, put 0 32 1],
    subs := [hdr 1 strict :: (tensor 1 0 0 0x1000 32 4 128).drop 1, tensor 0x11 0 0 0x2000 1 1 128, tensor 1 0 0 foldBase 32 1 128] }
def gsRuns (type strict x : Nat) : State :=
  (({ up with mem := putBytes (putBytes [] 0x1180 [9]) 0x2000 (leBytes 4 x) } : State)).setCtx 0 2 (some { d := gsIss type strict })

theorem witness_GatherScatterTransform :
    (∀ x ∈ [(0x31, 0, 3), (0x32, 0, 3), (0x31, 4096, 4)],
      let s := gsRuns x.1 x.2.1 x.2.2
      Settled s ∧ Untraced s ∧ s.ue = [] ∧ s.ctx 0 2 = some { d := gsIss x.1 x.2.1 } ∧ (s.fold 0).clocked = true ∧
      gsNIdx (gsIss x.1 x.2.1).words = 1 ∧ hdrType (gsIss x.1 x.2.1).words = x.1 ∧ gsOp (gsIss x.1 x.2.1).words = 0 ∧
      s.gsIndex (gsIss x.1 x.2.1) 0 = x.2.2 ∧ ((gsIss x.1 x.2.1).sub 0).dim 1 = 4 ∧
      ((gsIss x.1 x.2.1).sub 0).strict = (x.2.1 == 4096) ∧ s.jobLive = false ∧ fld (s.fold 0).regs.strErr 0 8 = 0) ∧
    hdrType [hdr 0x38 0] = 0x38 := by decide +kernel

/-- R310: row 3 of the table comes to the row tensor. -/
theorem test_gather : (after (.gatherScatterComplete 0 2) (gsRuns 0x31 0 3)).wordAt foldBase = 9 := by decide +kernel

/-- R311: an index outside a STRICT table. -/
theorem test_gather_strict : fld ((after (.gatherScatterComplete 0 2) (gsRuns 0x31 4096 4)).fold 0).regs.strErr 0 8 = 3 := by
  decide +kernel

theorem witness_ScrubAndRepair : Settled up ∧ up.hubOn = true ∧ (805306367 : Nat) < 805306368 ∧ up.ue = [] ∧ up.running = false ∧
    bit (up.die 0).ueLog 50 = false ∧ (65535 : Nat) < 65536 ∧ (up.fold 0).clocked = true ∧ (0 : Nat) ∉ (up.fold 0).island.ueRows ∧
    bit ({ ueLog := put 50 1 1 } : Die).ueLog 50 = true := by decide +kernel

/-- Row 7 of stack 3 has errors in three units, and its bank uses n spare rows. -/
def rowBad (n : Nat) : Die := { rowErrs := [(7, [112, 113, 114])], used := SMap.set 0 [] (Config.dramBank 3 7) n }

theorem witness_ScrubAndRepair_row : 3 ≤ (SMap.get [] (rowBad 0).rowErrs 7).length ∧
    SMap.get 0 (rowBad 0).used (Config.dramBank 3 7) < 16 ∧ 16 ≤ SMap.get 0 (rowBad 16).used (Config.dramBank 3 7) := by
  refine ⟨by decide, ?_, ?_⟩ <;> simp [rowBad, SMap.set, SMap.drop, SMap.ins, SMap.get]

/-- R43's example: the home of 0x1234000 is stack 14, offset 0xE9000. -/
theorem test_home : stackOf 0x1234000 = (14, 0xE9000) ∧ interOf 14 0xE9000 = 0x1234000 := by decide +kernel

theorem witness_AddressesAndPages : 0x1000 + 64 ≤ interTop ∧ 0x1000 / 0x200000 = (0x1000 + 64 - 1) / 0x200000 ∧
    (19 : Nat) < 20 ∧ localSize - 1 < localSize ∧ interTop - 1 < interTop ∧
    (up.pageEntry 0).testBit 1 = false ∧ (up.pageEntry 0).testBit 0 = true ∧ (up.pageEntry 0).testBit 3 = true ∧
    (up.pageEntry 0).testBit 4 = false ∧
    (({ up with cfg := { boot := .up, pages := some [(0, 2)] } } : State).pageEntry 0).testBit 1 = true := by decide +kernel

/-! ### Witnesses: links and received packets -/

/-- A device one of whose ports stands as given. -/
def port0 (x : Port) : State := up.setPort 0 x

/-- A handshake of version 1 from a port of a role (R340). -/
def hs (role : Nat) : List W64 := [hdr 0x40 0, put 0 8 1 ||| put 8 8 1 ||| put 16 3 role, 5, 0, 0, 0, 0, 0]

theorem witness_LinkTraining :
    (let s := port0 { st := .training, width := 3, role := 6 }
     Settled s ∧ Untraced s ∧ (s.port 0).st = .training ∧ (s.port 0).width ≠ 0 ∧ 1 ≤ (s.port 0).role ∧ (s.port 0).role ≤ 6) ∧
    handshakeCheck (hs 6) = .ok ∧ handshakeCheck [] = .version ∧ hsRole (hs 6) = 6 ∧ hsRole (hs 1) = 1 ∧
    (let s := port0 { st := .down, failedAt := some 7, role := 1 }
     (s.port 0).st = .down ∧ (s.port 0).failedAt = some 7 ∧ (s.port 0).role ≠ 0 ∧ (s.port 0).disable = false) := by decide +kernel

/-- R339: eight lanes of one side give ×8. -/
theorem test_equalisation : ((after (.equalisation 0 0xFF00) (port0 { st := .training, role := 6 })).port 0).width = 2 ∧
    ((after (.equalisation 0 0x0FF0) (port0 { st := .training, role := 6 })).port 0).st = .down := by decide +kernel

/-- A frame of 1 packet that has been sent. -/
def sentFrame : Frame := { fseq := 4, pkt := { pkt := mkSignal 0 16 0 0 1 0 }, sentAt := 0 }

theorem witness_LinkFrames :
    (let s := port0 { st := .active, role := 6, unacked := [sentFrame] }
     Settled s ∧ Untraced s ∧ (s.port 0).st ∈ [PortSt.training, .held, .active] ∧ (s.port 0).fseqIn = 0 ∧ (s.port 0).txq = [] ∧
     (s.port 0).replays < 8 ∧ s.heldDown (mkSignal 0 16 5 0 1 0) = false) ∧
    malformed 6 (mkSignal 0 16 5 0 1 0) = false ∧ (mkSignal 0 16 5 0 1 0).ptype = 3 ∧
    (up.port 0).st ∈ [PortSt.down, .reset, .disabled] := by decide +kernel

theorem witness_PortsLeaveService :
    (let s := port0 { st := .active, role := 6 }
     Settled s ∧ Untraced s ∧ (s.port 0).rxq = [] ∧ s.folds = [] ∧ (s.port 0).st ∈ [PortSt.held, .active] ∧ (s.port 0).disable = false) ∧
    (3 : W64).getLsbD 0 = true ∧ (3 : W64).getLsbD 1 = true ∧ up.hubOn = true := by decide +kernel

/-- Received, from a decidable list of what it asks. -/
theorem received_of {s : State} {p vc : Nat} {kind : RxKind} {k : Packet} {rest : List Packet}
    (h : s.due = [] ∧ ((s.trc 0).phase = .off ∧ (s.trc 1).phase = .off) ∧ SMap.get [] (s.port p).rxq vc = k :: rest ∧
      rxKind k = kind ∧ s.rxWaiting k = false ∧ ∀ q ∈ SMap.get [] (s.port p).rxq vcGRAD, q.ptype = ptRACC → s.raccWaits q = false) :
    Received s p vc kind k rest :=
  ⟨h.1, h.2.1, h.2.2.1, h.2.2.2.1, h.2.2.2.2.1, h.2.2.2.2.2⟩

/-- Port 0, ACTIVE in a role, holds one packet of a channel. -/
def holding (role vc : Nat) (k : Packet) : State := port0 { st := .active, role := role, rxq := [(vc, [k])] }

def timeAsk : Packet := mkPacket ptTIME 3 0 0 0 0 0 0 []
def timeReply : Packet := { mkPacket ptTIME 3 0 1 100 0 0 0 [] with w2 := 230, w3 := 120 }
def creditPkt : Packet := mkPacket ptCREDIT 0 0 0 7 0 0 0 []

theorem witness_TimeAndCredits : Received (holding 6 4 timeAsk) 0 4 .time timeAsk [] ∧ timeAsk.fA = 0 ∧
    Received (holding 6 4 timeReply) 0 4 .time timeReply [] ∧ timeReply.fA = 1 ∧ timeReply.addr = fld (100 : W64) 0 48 ∧
    Received (holding 6 4 creditPkt) 0 4 .credit creditPkt [] ∧ (PortSt.active ∈ [PortSt.held, .active]) ∧
    (64 ≤ (List.replicate 64 sentFrame).length) :=
  ⟨received_of (by decide +kernel), by decide +kernel, received_of (by decide +kernel), by decide +kernel, by decide +kernel,
   received_of (by decide +kernel), by decide +kernel, by decide +kernel⟩

/-- R358, R359: t1 = 100, t2 = 120, t3 = 230, t4 = 250 give offset 0 and delay 20; both count eighths of a tick. -/
theorem test_time_reply :
    ((after (.time 0) { (holding 6 4 timeReply).updPort 0 fun x => { x with timeReq := [100] } with now := 250 }).port 0).regs.tofs
      = put 0 40 0 ||| put 40 24 320 := by decide +kernel

def dataPkt (a skip : Nat) : Packet := mkPacket ptDATA 0 0 0 a 0 0 skip [1, 2, 3, 4]
def sigPkt (lf n : Nat) : Packet := mkSignal 0 0 n lf 3 0
def boxPkt (n : Nat) : Packet := mkPacket ptMSG 3 0 0 0 0 0 0 (leBytes 8 77 ++ [BitVec.ofNat 8 n])
/-- A mailbox word from the partner's shepherd for channel 70. -/
def shepPkt : Packet := mkPacket ptMSG 3 2 0 0 0 0 0 (leBytes 8 77 ++ [70])
def wakePkt : Packet := mkPacket ptMSG 3 0 1 0 0 0 0 (List.replicate 64 0)

theorem witness_PacketsPerformed : Received (holding 6 0 (dataPkt 0x1000 2)) 0 0 .data (dataPkt 0x1000 2) [] ∧
    Received (holding 6 0 (dataPkt foldBase 0)) 0 0 .data (dataPkt foldBase 0) [] ∧
    Received (holding 6 0 (sigPkt 319 63)) 0 0 .signal (sigPkt 319 63) [] ∧ Received (holding 6 0 (sigPkt 320 0)) 0 0 .signal (sigPkt 320 0) [] ∧
    Received (holding 6 3 (boxPkt 16)) 0 3 .mailbox (boxPkt 16) [] ∧ Received (holding 6 3 (boxPkt 72)) 0 3 .mailbox (boxPkt 72) [] ∧
    Received (holding 3 3 shepPkt) 0 3 .mailbox shepPkt [] ∧
    Received (holding 6 3 wakePkt) 0 3 .wake wakePkt [] :=
  ⟨received_of (by decide +kernel), received_of (by decide +kernel), received_of (by decide +kernel), received_of (by decide +kernel),
   received_of (by decide +kernel), received_of (by decide +kernel), received_of (by decide +kernel), received_of (by decide +kernel)⟩

theorem witness_PacketsPerformed_more : up.accStatus 1 .hostWrite 0x1000 64 = .ok ∧ up.jobLive = false ∧ up.res.filling = false ∧
    (sigPkt 319 63).fB = 319 ∧ (sigPkt 320 0).fB = 320 ∧ (up.slot (up.physOf 319) 63).waiters = [] ∧
    fld (up.mboxCfg 16) 0 13 ≠ 0 ∧ (up.mbox 16).full = false ∧ (shepPkt.body.getD 8 0).toNat = 70 ∧ shepPkt.src = 2 ∧ up.mboxRcv 70 = 2 := by
  decide +kernel

/-- R345: HEAD_SKIP = 2 leaves the first two bytes as they were. -/
theorem test_data : (after (.data 0 0) (holding 6 0 (dataPkt 0x1000 2))).bytesAt 0x1000 5 = [0, 0, 3, 4, 0] := by decide +kernel

theorem test_signal_refused : fld ((after (.signal 0 0) (holding 6 0 (sigPkt 320 0))).port 0).regs.rxErr 0 8 = 3 := by decide +kernel

/-- A command block (R491): OP, result slot, TAG and arguments. -/
def cmdWords (op rslot : Nat) (args : List W64) : List W64 := [hdr 0x70 (7 * 2 ^ 32), put 0 8 op ||| put 8 8 rslot] ++ args
def cmdPkt (kind : Nat) : Packet := mkPacket ptMSG 3 0 kind 0x1000 0 0 0 (List.replicate 64 0)

/-- Command slot 3 holds a block. -/
def slot3 (ws : List W64) : State :=
  { up with host := { ready := true, msixTab := msixOpen, slots := (ws.zipIdx.map fun x => (24 + x.2, x.1)).filter fun x => x.2 ≠ 0 } }

theorem witness_CommandsTaken : Received (holding 6 3 (cmdPkt 2)) 0 3 .cmd (cmdPkt 2) [] ∧
    Received (holding 6 3 (cmdPkt 3)) 0 3 .readReq (cmdPkt 3) [] ∧ (cmdPkt 3).addr < 0x00F000000000 ∧
    SMap.get 0 (slot3 (cmdWords 1 9 [])).host.taken 3 = 0 ∧ (slot3 (cmdWords 1 9 [])).hubOn = true ∧
    (slot3 (cmdWords 1 9 [])).cmdCheck { words := (cmdWords 1 9 []), cslot := 3 } = .ok ∧ fld (slot3 []).host.regs.cmdErr 0 8 = 0 ∧
    bit ((slot3 []).host.msix 3) 32 = false :=
  ⟨received_of (by decide +kernel), received_of (by decide +kernel), by decide +kernel, by decide +kernel, by decide +kernel,
   by decide +kernel, by decide +kernel, by decide +kernel⟩

/-- R504: the doorbell of a NOP makes result slot 9 BUSY, with SEQ and GEN 1; R491: a block of zeros is refused. -/
theorem test_doorbell : (after (.doorbell 3) (slot3 (cmdWords 1 9 []))).resWord 9 0 = put 0 32 1 ||| put 32 16 1 ||| put 49 1 1 ||| put 56 8 1 ∧
    (after (.doorbell 3) (slot3 [])).host.regs.cmdErr = put 0 8 0x05 ||| put 8 5 3 := by decide +kernel

/-! ### Witnesses: gradient exchange and resilience -/

/-- A reduce plan (R376): mode, algorithm, group, backups; DONE slot 9, DEADLINE 1,000. -/
def plan (mode alg group nback : Nat) : List W64 :=
  [put 12 2 mode ||| put 14 2 alg, 0, 0, 0, 0, put 0 6 group ||| put 8 4 nback, put 16 6 9 ||| put 32 32 1000, 1]

/-- GRAD and SUM of 32 elements of FP32. -/
def planSubs : List (List W64) := [tensor 1 0 0 0x100000 32 1 128, tensor 1 0 0 0x200000 32 1 128, [], tensor 1 0 0 0x300000 32 1 128]

/-- A job of this device (rank 0): its plans, and a resilience header. -/
def jobOf (resil : List W64) : Job :=
  { hdr := [0, 5, 0, 0, 0, 0, 0, 0], branch := [put 16 9 1], order := [], folds := [], slivers := [], layers := [],
    groups := [[0, 1, 2], [0, 1, 2, 3], [1, 2, 0]], ports := [], mbx := [],
    plans := [plan 0 0 0 0, plan 0 1 0 0, plan 0 0 1 2, plan 0 0 2 1, plan 1 0 0 0], planSub := List.replicate 5 planSubs,
    resil := resil, prot := [], size := 0 }

/-- The root of the commit tree, without children, partner or stripes. -/
def rootHdr : List W64 := [0, put 32 4 15]

/-- A device in a host state with a job and open instances. -/
def inJob (st : HostSt) (resil : List W64) (insts : List Inst) (ports : SMap Port) : State :=
  { up with host := { st := st, ready := true }, job := some (jobOf resil), col := { insts := insts }, ports := ports }

/-- Port 0, ACTIVE in a role, holds a packet of a channel. -/
def heldBy (role vc : Nat) (k : Packet) : SMap Port := [(0, { st := .active, role := role, rxq := [(vc, [k])] })]

def instWaits : Inst := { plan := 0, step := 0, waiting := true }
def instOther : Inst := { plan := 1, step := 0, alloc := true, chunks := [{ e := 0 }] }

theorem witness_InstanceAllocatesAndGathers :
    (let s := inJob .running rootHdr [instWaits] []
     Settled s ∧ s.ue = [] ∧ (s.col.insts.find? fun y => y.plan = 0 && y.waiting) = some instWaits ∧ s.inst 0 0 = some instWaits ∧
     s.poolRoom 0 = true) ∧
    (inJob .running rootHdr [instWaits, instOther] []).poolRoom 0 = false := by decide +kernel

/-- A contribution of member idx to a plan, 32 elements long. -/
def racc (p idx : Nat) : Packet := mkPacket ptRACC vcGRAD 0 p 0x200000 idx 0 0 (List.replicate 128 0)
def gathering (p : Nat) (copy : SMap Nat) (entered : List Nat) : Inst :=
  { plan := p, step := 0, alloc := true, chunks := [{ e := 0, entered := entered }], copy := copy }

theorem witness_InstanceAllocatesAndGathers_racc : ∀ x ∈ [(racc 0 1, gathering 0 [] [], 0), (racc 0 1, gathering 0 [(1, 2)] [1], 0),
      (racc 2 3, gathering 2 [(1, 2)] [1], 2)],
    let s := inJob .running rootHdr [x.2.1] (heldBy 4 1 x.1)
    (SMap.get [] (s.port 0).rxq 1 = [x.1] ∧ rxKind x.1 = .racc ∧ s.rxWaiting x.1 = false ∧ s.raccWaits x.1 = false ∧ Settled s ∧ Untraced s) ∧
    s.raccCheck x.1 = .ok ∧ s.planStep16 x.2.2 (x.1.fC / 65536) = some 0 ∧ s.inst x.2.2 0 = some x.2.1 ∧ x.1.fC % 16 = 0 ∧
    x.1.fB / 256 = 0 ∧ s.planSlot x.2.2 (x.1.fB % 256) = 1 ∧ s.planSlot x.2.2 (s.planMe x.2.2) = 0 ∧ x.2.1.chunks.length = 1 := by
  decide +kernel

theorem witness_InstanceAllocatesAndGathers_idx : (racc 0 1).fB % 256 < (inJob .running rootHdr [] []).planN 0 ∧
    (racc 2 3).fB % 256 = 3 ∧ (inJob .running rootHdr [] []).planN 2 = 2 ∧
    (inJob .configured rootHdr [] []).raccCheck (racc 9 1) = .bounds ∧ (inJob .configured rootHdr [] []).jobLive = false := by
  decide +kernel

theorem witness_CollectiveMessages :
    (∀ x ∈ [(colMsg 0x10 0 0 0 0 0 [], RxKind.backupReq), (colMsg 0x10 3 0 0 0 0 [], .backupReq), (colMsg 0x11 0 0 1 0 0 [0], .resend),
        (colMsg 0x11 1 0 0xFF 0 5 [0], .resend)],
      let s := inJob .running rootHdr [{ plan := 3, step := 0 }, instOther] (heldBy 4 3 x.1)
      SMap.get [] (s.port 0).rxq 3 = [x.1] ∧ rxKind x.1 = x.2 ∧ s.rxWaiting x.1 = false ∧ SMap.get [] (s.port 0).rxq 1 = [] ∧ Settled s ∧ Untraced s ∧
      (s.planWords (fld (msgWord x.1) 0 10)).isSome = true ∧ s.msgStep (fld (msgWord x.1) 0 10) (fld (msgWord x.1) 10 16) = some 0) ∧
    (let s := inJob .running rootHdr [{ plan := 3, step := 0 }, instOther] []
     s.planMe 0 ≠ s.planN 0 + 0 ∧ s.planMe 3 = s.planN 3 + 0 ∧ s.inst 3 0 = some { plan := 3, step := 0 } ∧ (1 : Nat) ≠ s.planMe 0 ∧
     s.planRsAg 1 = true ∧ s.inst 1 0 = some instOther ∧
     (msgChunks (colMsg 0x11 1 0 0xFF 0 5 [0])).filter (· < s.planChunks 1) = [0]) := by decide +kernel

/-- Every contribution to a pair-mode instance is in. -/
def instDone : Inst :=
  { plan := 4, step := 0, lfolds := [0], started := some 3, alloc := true, chunks := [{ e := 0, entered := [0, 1, 2], own := true }] }
def instLate : Inst := { instOther with started := some 3, expired := some 1003 }

theorem witness_InstancesEnd :
    (let s := inJob .running rootHdr [instDone, instLate] []
     Settled s ∧ Untraced s ∧ s.ue = [] ∧ s.inst 4 0 = some instDone ∧ s.instFull instDone = true ∧ s.planPair 4 = true ∧
     (s.fold (s.physOf 0)).island.graze = false ∧ (s.slot (s.physOf 0) 9).waiters = [] ∧ instDone.started = some 3 ∧
     instDone.expired = none ∧ planDeadline (s.planP 4) ≠ 0 ∧ s.inst 1 0 = some instLate ∧ s.planRsAg 1 = true ∧
     s.instFull instLate = false ∧ instLate.expired = some 1003 ∧ s.job.isSome = true) := by decide +kernel

/-- R408: the DONE slot of the fold that READY named gains one. -/
theorem test_reduce_complete : ((after (.reduceComplete 4 0) (inJob .running rootHdr [instDone] [])).slot 0 9).count = 1 := by
  decide +kernel

/-- A device whose port 0 holds a control record. -/
def recHeld (st : HostSt) (resil : List W64) (res : Res) (role : Nat) (k : Packet) : State :=
  { inJob st resil [] (heldBy role 2 k) with res := res }

/-- Resilience headers: parent port 0; stripes of group 0 every 10 steps; a mirror reserve. -/
def leafHdr : List W64 := [0, put 32 4 0]
def stripeHdr : List W64 := [0, put 0 13 10 ||| put 16 2 1 ||| put 24 6 0 ||| put 32 4 15]
def mirrorHdr : List W64 := [put 14 2 1, put 32 4 15]

/-- The facts that every record's premise asks. -/
def ready (s : State) (kind : RxKind) (k : Packet) : Bool :=
  decide <| s.due = [] ∧ ((s.trc 0).phase = .off ∧ (s.trc 1).phase = .off) ∧ SMap.get [] (s.port 0).rxq 2 = [k] ∧ rxKind k = kind ∧
    s.rxWaiting k = false ∧ ∀ q ∈ SMap.get [] (s.port 0).rxq vcGRAD, q.ptype = ptRACC → s.raccWaits q = false

theorem witness_MirrorAndStripeRecords :
    ready (recHeld .running rootHdr {} 3 (mkCtrl 0x0A 0 [])) (.ctrl 0x0A) (mkCtrl 0x0A 0 []) ∧
    ready (recHeld .running rootHdr {} 3 (mkCtrl 3 0 [])) (.ctrl 3) (mkCtrl 3 0 []) ∧
    ready (recHeld .running rootHdr {} 3 (mkCtrl 4 0 [])) (.ctrl 4) (mkCtrl 4 0 []) ∧
    (let s := recHeld .running leafHdr { devN := some 0 } 3 (mkCtrl 4 0 [])
     ready s (.ctrl 4) (mkCtrl 4 0 []) ∧ s.nextStep = 0 ∧ resChildren s.resHdr = [] ∧ resParent s.resHdr ≠ 0xF ∧ s.tallyWaits = false) ∧
    (let s := recHeld .running stripeHdr {} 4 (mkCtrl 5 0 [0] 1)
     ready s (.ctrl 5) (mkCtrl 5 0 [0] 1) ∧ s.stripeElse (mkCtrl 5 0 [0] 1) = true) ∧
    (let s := recHeld .running stripeHdr { drains := [{ step := 0, begun := true }] } 4 (mkCtrl 5 0 [0] 0)
     ready s (.ctrl 5) (mkCtrl 5 0 [0] 0) ∧ s.stripeElse (mkCtrl 5 0 [0] 0) = false ∧ s.stripeMe = 0 ∧ 0 + 1 < s.stripeG - 1) := by decide +kernel

theorem witness_MirrorAndStripeRecords_more :
    (let s := recHeld .running stripeHdr { owns := [(0, 0), (2, 0)] } 4 (mkCtrl 6 0 [1] 0)
     ready s (.ctrl 6) (mkCtrl 6 0 [1] 0) ∧ s.stripeElse (mkCtrl 6 0 [1] 0) = false ∧
     (∀ m, m < s.stripeG → (m, 0) ∈ [(0, 0), (2, 0), (1, 0)]) ∧ s.res.lastGroup = none) ∧
    ((2 : Nat) < 3 ∧ ((2, 0) : Nat × Nat) ∉ [(0, 0), (1, 0)]) ∧
    (let s := recHeld .running mirrorHdr {} 3 (mkCtrl 0x0B 0 [put 0 13 1])
     ready s (.ctrl 0x0B) (mkCtrl 0x0B 0 [put 0 13 1]) ∧ s.hasPartner = true ∧ (recHeld .running rootHdr {} 3 wakePkt).hasPartner = false) := by
  decide +kernel

theorem witness_CommitAndStopRecords :
    ready (recHeld .running rootHdr {} 4 (mkCtrl 1 0 [])) (.ctrl 1) (mkCtrl 1 0 []) ∧
    ready (recHeld .loaded rootHdr {} 4 (mkCtrl 1 0 [])) (.ctrl 1) (mkCtrl 1 0 []) ∧
    (let s := recHeld .running leafHdr {} 4 (mkCtrl 2 0 [put 63 1 1])
     ready s (.ctrl 2) (mkCtrl 2 0 [put 63 1 1]) ∧ resParent s.resHdr = 0 ∧ s.nextStep = 0 ∧ s.cfg.staged = none ∧ s.cmdOf 5 = none) ∧
    ready (recHeld .paused leafHdr {} 4 (mkCtrl 7 0 [])) (.ctrl 7) (mkCtrl 7 0 []) ∧
    ready (recHeld .running leafHdr { stopped := true } 4 (mkCtrl 7 0 [])) (.ctrl 7) (mkCtrl 7 0 []) ∧
    ready (recHeld .running leafHdr {} 4 (mkCtrl 8 0 [])) (.ctrl 8) (mkCtrl 8 0 []) ∧
    ready (recHeld .running leafHdr {} 4 (mkCtrl 9 0 [])) (.ctrl 9) (mkCtrl 9 0 []) ∧
    ready (recHeld .recovering leafHdr { resumeSent := true, stopped := true } 4 (mkCtrl 9 0 [1])) (.ctrl 9) (mkCtrl 9 0 [1]) := by
  decide +kernel

/-- R429: a global commit of step 0 is recorded. -/
theorem test_global : (after (.global 0) (recHeld .running leafHdr {} 4 (mkCtrl 2 0 []))).res.regs.commitGlb = put 48 1 1 := by
  decide +kernel

/-- R458: STOP makes a paused device RECOVERING. -/
theorem test_stop : (after (.stopRecord 0) (recHeld .paused leafHdr {} 4 (mkCtrl 7 0 []))).host.st = .recovering := by
  decide +kernel

/-- A MIRROR packet of entry 0, buffer 0, in a fill. -/
def mirPkt (a : Nat) : Packet := mkMirror 0 0 true true 0 a (List.replicate 64 9)
def copies : Res := { pair := { copies := [(0, 64, 0x800000, 0x810000)], fillIn := true } }

/-- A SHARE (0) or RESTORE (2) packet for a member: OWNER 1, slot 0 (R442). -/
def stripePkt (op target a : Nat) : Packet := mkPacket ptSTRIPE vcRES 0 (op * 512 + 32 + target) a 0 0 0 (List.replicate 64 9)

theorem witness_CopiesReceived :
    (let s := recHeld .configured mirrorHdr copies 3 (mirPkt 0x800000)
     ready s .mirror (mirPkt 0x800000) ∧ s.ue = [] ∧ s.mirrorOk (mirPkt 0x800000) = true ∧ s.mirrorOk (mirPkt 0x7FFFC0) = false ∧
     mirIdx (mirPkt 0x800000) ≠ 0xFFE ∧ s.res.pair.refill = false ∧ s.jobLive = false) ∧
    (let s := recHeld .configured stripeHdr {} 4 (stripePkt 0 2 0)
     ready s .share (stripePkt 0 2 0) ∧ s.stripeElse (stripePkt 0 2 0) = true ∧ s.stripeElse (stripePkt 0 0 0) = false ∧
     s.hasStripe = true) ∧
    (let s := recHeld .configured stripeHdr {} 4 (stripePkt 2 2 0)
     ready s .restore (stripePkt 2 2 0) ∧ s.stripeElse (stripePkt 2 2 0) = true ∧ s.stripeElse (stripePkt 2 0 0) = false ∧
     s.res.resumeAt = none) ∧
    (recHeld .configured rootHdr {} 4 (stripePkt 0 0 0)).hasStripe = false := by decide +kernel

/-- The areas lie at open addresses (log entry 36); wherever one of a unit or more begins in the device's memory, a packet
reaches its first unit. -/
theorem witness_CopiesReceived_inside (base size : Nat) (h : base < 2 ^ 48) (h64 : 64 ≤ size) :
    ∃ k : Packet, base ≤ k.addr ∧ k.addr + 64 * k.len ≤ base + size := by
  refine ⟨⟨put 6 10 1, BitVec.ofNat 64 base, 0, 0, []⟩, ?_⟩
  have hl : Packet.len ⟨put 6 10 1, BitVec.ofNat 64 base, 0, 0, []⟩ = 1 := by
    show fld (put 6 10 1) 6 10 = 1
    decide
  have ha : Packet.addr ⟨put 6 10 1, BitVec.ofNat 64 base, 0, 0, []⟩ = base := by
    simp [Packet.addr, fld]
    omega
  rw [hl, ha]
  omega

/-- Ports that hold 64 frames that wait for an acknowledgement. -/
def fullPorts : SMap Port := (List.range 6).map fun q => (q, { st := .active, role := 4, unacked := List.replicate 64 sentFrame })

theorem witness_Watching :
    (let s := inJob .configured rootHdr [] fullPorts
     Settled s ∧ Untraced s ∧ s.ue = [] ∧ (∀ q, q < 6 → 64 ≤ (s.port q).unacked.length) ∧ s.jobLive = false ∧ s.job ≠ none ∧
     (s.port 5).role ≠ 0 ∧ (s.port 5).role ≠ 6 ∧ 5 ∉ s.res.lost ∧ (s.port 5).st = .active ∧ (s.port 5).rxq = [] ∧
     (s.port 5).disable = false) ∧
    (let s := inJob .configured rootHdr [] [(5, { st := .training, role := 4, awayAt := some 8 })]
     (s.port 5).awayAt = some 8 ∧ (s.port 5).st = .training) ∧
    (let s := { recHeld .running mirrorHdr { devN := some 0, pair := { addrs := true } } 3 wakePkt with
       ports := [(0, { st := .active, role := 3 })] }
     s.partnerUp = true ∧ s.res.mirDone ≠ some 0 ∧ s.res.pair.fillMine = [] ∧ s.mirrorClear 0 = true) ∧
    (up.logicalOf 160 = none ∧ up.res.rebuild = none ∧ 160 ∉ up.res.failedF ∧ up.logicalOf 159 = some 159 ∧ 160 ∈ up.res.spares) ∧
    ({ up with sec := { shepAt := some 4 } } : State).sec.shepAt = some 4 := by decide +kernel

/-- R463: a failed fold's logical fold is rebuilt on the lowest spare of its die. -/
theorem test_heartbeat : (after (.heartbeatMiss (16 + 159)) up).res.rebuild = some ⟨159, 159, 160, .test⟩ := by decide +kernel

/-- A rebuild of logical fold 5 from fold 5 onto fold 160, at a phase. -/
def rebuilding (ph : RbPhase) : State := { up with res := { rebuild := some ⟨5, 5, 160, ph⟩, spares := [161], failedF := [5] } }

theorem witness_RebuildSteps : ∀ ph ∈ [RbPhase.test, .clear, .map],
    let s := rebuilding ph
    Settled s ∧ Untraced s ∧ s.ue = [] ∧ s.res.rebuild = some ⟨5, 5, 160, ph⟩ ∧ s.jobLive = false ∧ 160 ∉ s.res.failedF ∧
    s.logicalOf 160 = none ∧ s.res.rebuildQ = [] ∧ 161 ∈ s.res.spares ∧ s.host.st ≠ .recovering ∧ s.host.st ≠ .paused := by
  decide +kernel

/-- R464: FLD_MAP of fold 5 names the spare, with one rebuild. -/
theorem test_map : (after .map (rebuilding .map)).fldMapReg 5 = put 0 12 160 ||| put 16 12 1 := by decide +kernel

/-- A RECOVERING device, the root (rootHdr) or a leaf (leafHdr), whose own recovery is done. -/
def healed (hdr : List W64) : State := recHeld .recovering hdr { stopped := true } 4 (mkCtrl 1 0 [])

theorem witness_IdleStepIsOneTick :
    (State.reset.pending = [] ∧ State.reset.hubOn = false ∧ up.pending = [] ∧ up.hubOn = true ∧ Settled up ∧
      up.host.st ≠ .recovering ∧ up.host.st ≠ .paused) ∧
    (∀ hdr ∈ [rootHdr, leafHdr], let s := healed hdr
      s.pending = [] ∧ s.hubOn = true ∧ Settled s ∧ Untraced s ∧ s.ue = [] ∧ s.host.st = .recovering ∧ s.recovered = true ∧
        s.res.resumeSent = false ∧ (∀ p ∈ resChildren s.resHdr, p ∈ s.res.resumeV) ∧ s.res.rollNeed = false ∧
        s.hasStripe = false) ∧
    resParent (healed rootHdr).resHdr = 0xF ∧ resParent (healed leafHdr).resHdr = 0 ∧ (healed leafHdr).inSvc 0 = true := by
  decide +kernel


/-! ### Witnesses: the host -/

/-- A host command waits. -/
def queued (s : State) (ws : List W64) : State := { s with host := { s.host with queue := [{ words := ws, cslot := 0 }] } }
/-- What a command of these words is. -/
def cmdOfWords (ws : List W64) : Cmd := { words := ws, cslot := 0 }

theorem witness_HostAccesses :
    (Settled up ∧ up.hubOn = true ∧ up.host.ready = true ∧ up.cfg.boot = .up ∧ up.ue = [] ∧ up.host.pba = 0 ∧ up.host.perst = false) ∧
    (0 < 0x1000800 ∧ 0x10007FF < 0x1000800 ∧ 0x1000800 < 0x1010000 ∧ 0x10203FC < 0x1020400 ∧ 0x10203FC % 4 = 0) ∧
    (up.accStatus 1 .hostRead 0 8 = .ok ∧ up.accStatus 1 .hostWrite 0x1FFFF8 8 = .ok ∧ 0x1FFFF8 + 8 ≤ 2 ^ 32) ∧
    (let s := { up with cfg := { boot := .up, pages := some [] } }
     s.accStatus 1 .hostRead 0 8 ≠ .ok ∧ s.accStatus 1 .hostWrite 0 8 ≠ .ok) ∧
    (let s := { up with host := { ready := true, l1 := true } }
     s.host.l1 = true ∧ s.pwr.state = 0 ∧ s.pwr.entering = none) ∧
    (let s := { up with host := { ready := true, l1 := true }, pwr := { state := 2 } }
     Settled s ∧ s.host.l1 = true ∧ s.pwr.state = 2 ∧ s.pwr.wakes = []) := by decide +kernel

/-- A result slot whose status word stands as given. -/
def slotIs (w : W64) : State := { up with host := { ready := true, results := [(8 * 9, w)] } }

/-- Each clause of the result slots: BUSY, READY, its own SEQ, another SEQ. -/
theorem witness_ResultSlots :
    (let s := slotIs (put 0 32 7 ||| put 49 1 1)
     Settled s ∧ s.hubOn = true ∧ s.host.ready = true ∧ bit (s.resWord 9 0) 49 = true ∧ bit (s.resWord 9 0) 48 = false) ∧
    (let s := slotIs (put 0 32 7 ||| put 48 1 1)
     Settled s ∧ s.hubOn = true ∧ s.host.ready = true ∧ bit (s.resWord 9 0) 48 = true ∧
     fld (s.resWord 9 0) 0 32 = fld (put 0 8 9 ||| put 32 32 7 : W64) 32 32 ∧ fld (put 0 8 9 ||| put 32 32 7 : W64) 0 8 = 9 ∧
     fld (s.resWord 9 0) 0 32 ≠ fld (put 0 8 9 ||| put 32 32 8 : W64) 32 32) := by decide +kernel

/-- A protected-tensor entry of a job without replicas. -/
def job1 : Job := { jobOf rootHdr with prot := [[hdr 0x30 0, 0x200000, 64, 0, 0, 0, 0, 0]] }
def inJob1 : State := { up with job := some job1 }

theorem witness_SimpleHostCommands :
    (∀ x ∈ [(0x01, []), (0x0A, [0]), (0x0A, [0xFFF]), (0x05, [0]), (0x05, [1]), (0x06, []), (0x0C, []), (0x09, [0, 1, 0x400000]),
        (0x09, [0, 0, 0x400000]), (0x09, [0, 1, 0x00F000000000]), (0x09, [0, 1, BitVec.allOnes 64])],
      let s := { queued inJob1 (cmdWords x.1 9 x.2) with res := { regs := { tally := 1 } } }
      Settled s ∧ s.cmdOf x.1 = some (cmdOfWords (cmdWords x.1 9 x.2)) ∧ s.sec.fuse = none ∧ s.pwr.level < 2 ∧ s.ue = []) ∧
    inJob1.prots.length = 1 ∧ fld (0 : W64) 0 48 ≤ inJob1.glbStep ∧ inJob1.glbStep < fld (1 : W64) 0 48 ∧ up.recovered = false ∧
    2 ≤ ({ up with pwr := { level := 2 } } : State).pwr.level ∧
    (let s := { inJob1 with res := { regs := { tally := 1 } } }
     0 + 1 ≤ s.head ∧ s.head ≤ 0 + 65536 ∧ s.accStatus 1 .hostWrite 0x400000 64 = .ok ∧
     (0x400000 + 64 ≤ s.poolBase ∨ s.poolBase + 0x400000 ≤ 0x400000) ∧ s.poolBase + 0x400000 ≤ 0x00F000000000) ∧
    ({ inJob1 with cfg := { boot := .up, pages := some [] } } : State).accStatus 1 .hostWrite 0x400000 64 ≠ .ok := by decide +kernel

theorem witness_JobCommands :
    (∀ x ∈ [(0x02, [0]), (0x02, [8]), (0x03, [0, 64]), (0x04, [0]), (0x04, [2]), (0x04, [3]), (0x07, [])],
      let s := queued up (cmdWords x.1 9 x.2)
      Settled s ∧ Untraced s ∧ s.ue = [] ∧ s.cmdOf x.1 = some (cmdOfWords (cmdWords x.1 9 x.2)) ∧ s.job = none ∧
      setAux s.cfg.settings = none ∧ s.cfg.staged = none ∧ (∀ p, p < 6 → (s.port p).role = 0 ∧ (s.port p).st = .down)) ∧
    (up.loadCheck 0 64 false).1 ≠ .ok ∧
    (let s := { queued up (cmdWords 0x03 9 [0, 64]) with cfg := { boot := .up, loading := some (jobOf rootHdr, []) } }
     s.cfg.loading = some (jobOf rootHdr, []) ∧ s.cfg.auxPort = none ∧ (∀ p, p < 6 → fld ((jobOf rootHdr).ports.getD p (0, 0)).1 0 3 = 0)) ∧
    (let s := { up with job := some (jobOf rootHdr) }
     s.paired = true ∧ s.hasPartner = false ∧ (s.sharedFeed && !s.hasStripe && !(resAccept s.resHdr)) = false ∧ s.keptJob = false) := by
  decide +kernel

/-! ### Witnesses: staged changes, resets, mailboxes and crooks -/

/-- A staged change of COL_SMALL (code 3). -/
def smallBlock (code : Nat) : List W64 := [hdr 0x89 0, 1, 0, 0, 0, 0, 0, 0, BitVec.ofNat 64 code, 12]
def smallStaged : Staged := { cmd := { cmdOfWords (cmdWords 0x08 9 [0x1000]) with started := true }, items := [(3, 12)] }
def staging (answers : List (Nat × Nat)) : State :=
  { up with cfg := { boot := .up, stageSt := 2, staged := some { smallStaged with answers := answers } } }

theorem witness_StagedChanges :
    (let s := queued (poked up 0x1000 (smallBlock 3)) (cmdWords 0x08 9 [0x1000])
     Settled s ∧ (s.host.queue.find? fun d => d.op = 0x08 && !d.started) = some (cmdOfWords (cmdWords 0x08 9 [0x1000])) ∧
     s.stageCheck 0x1000 = .ok) ∧
    (poked up 0x1000 (smallBlock 5)).stageCheck 0x1000 = .unsupported ∧ 0x1008 % 64 ≠ 0 ∧
    (Settled (staging []) ∧ 0x3FF ∈ smallStaged.islands (staging []) ∧ (staging []).host.st = .offline ∧
     7 ∉ smallStaged.islands (staging []) ∧ smallStaged.items = [(3, 12)] ∧ fld (3 : W64) 0 8 = 0x03 ∧
     bit ((staging []).trc 0).ctl 0 = false ∧ bit ((staging []).trc 1).ctl 0 = false) ∧
    (let s := { staging [] with host := { st := .running } }
     s.host.st = .running ∧ s.host.st ≠ .recovering ∧ 0x3FF ∈ smallStaged.islands s) := by decide +kernel

/-- R658: the last PREPARED outside RUNNING applies the change. -/
theorem test_stage : (after (.stageAnswer 0x3FF 1 0) (staging [])).col.small = 12 ∧
    (after (.stageAnswer 0x3FF 1 0) (staging [])).cfg.staged = none := by decide +kernel

theorem witness_Resets :
    (Settled up ∧ up.cfg.boot = .up ∧ (queued up (cmdWords 0x0D 9 [])).cmdOf 0x0D ≠ none ∧ up.hubOn = true ∧ up.host.ready = true) ∧
    (Settled State.reset ∧ State.reset.cfg.boot = .noPower) ∧ fld (put 48 16 0x4855 ||| 1 : W64) 48 16 = 0x4855 ∧
    (put 48 16 0x4855 ||| 1 : W64).getLsbD 0 = true ∧ up.host.st ≠ .running ∧ up.host.st ≠ .recovering ∧
    (inJob .running rootHdr [] []).host.st = .running ∧ (inJob .running rootHdr [] []).job ≠ none ∧
    (inJob .running rootHdr [] []).ue = [] ∧ Untraced (inJob .running rootHdr [] []) := by decide +kernel

/-- R498: a hub reset completes the waiting commands with BUSY. -/
theorem test_hubm_reset : fld ((after (.hubmReset (put 48 16 0x4855 ||| 1)) (queued up (cmdWords 1 9 []))).resWord 9 0) 56 8 = 9 := by
  decide +kernel

theorem test_warm_reset : (after .warmReset (queued { up with sec := { debug := 2 } } (cmdWords 0x0D 9 []))).sec.debug = 0 := by
  decide +kernel

/-- A job whose mailbox 16 belongs to fold 5, event slot 3. -/
def mbxJob : State := { up with job := some { jobOf rootHdr with mbx := [put 0 12 5 ||| put 12 1 1 ||| put 16 6 3] } }
def boxIs (s : State) (n : Nat) (b : MBox) : State := { s with mbx := { s.mbx with boxes := [(n, b)] } }

theorem witness_MailboxesAndCrooks :
    (∀ s ∈ [up, mbxJob, boxIs up 16 { word := 7, full := true, sender := 2 }, { mbxJob with pwr := { state := 2 } },
        mbxJob.setFold (mbxJob.physOf 5) { island := { graze := true } }],
      Settled s ∧ s.hubOn = true ∧ s.host.ready = true) ∧
    (up.mboxRcv 16 = 1 ∧ fld (up.mboxCfg 16) 0 13 ≠ 0 ∧ fld (up.mboxCfg 0) 0 13 = 0 ∧ (up.mbox 16).full = false ∧
     (boxIs up 16 { full := true }).mbox 16 = { full := true } ∧ bit (up.host.msix 33) 32 = false) ∧
    (mbxJob.mboxRcv 16 = 16 + mbxJob.physOf 5 ∧ fld (mbxJob.mboxCfg 16) 16 6 = 3 ∧ (mbxJob.slot (mbxJob.physOf 5) 3).waiters = [] ∧
     (mbxJob.slot (mbxJob.physOf 5) 3).count < 65535 ∧ (mbxJob.fold (mbxJob.physOf 5)).island.graze = false) ∧
    (∀ n : Fin 72, 64 ≤ n.val → up.mboxRcv n.val ≠ 0) ∧ up.mboxRcv 64 = 2 ∧ up.mboxRcv 66 = 1 ∧ ([1, 1, 2, 3, 2, 3, 4, 4] : List Nat)[0]? = some 1 ∧
    (up.crook 8).owner = 0 ∧ (after (.crookRead 1 8) up).crook 8 = { owner := 1 } := by decide +kernel

/-- R517: a word of host to shepherd. R513: another is lost. -/
theorem test_mailbox : ((after (.mbxDataWrite 1 64 77) up).mbox 64) = { word := 77, full := true, sender := 1 } ∧
    ((after (.mbxDataWrite 1 64 78) (boxIs up 64 { word := 77, full := true, sender := 1 })).mbox 64).lost = 1 := by decide +kernel

/-- R515: the receiver's read of MBX_TAKE takes the word; another's reads 0. -/
theorem test_take : (after (.mbxTake 2 64) (boxIs up 64 { word := 77, full := true, sender := 1 })).rdata = [77, 0, 0, 0, 0, 0, 0, 0] ∧
    (after (.mbxTake 3 64) (boxIs up 64 { word := 77, full := true, sender := 1 })).rdata = List.replicate 8 0 := by decide +kernel

/-! ### Witnesses: supply, start-up, power and temperature -/

def fed (p : Pwr) : State := { up with pwr := p }

theorem witness_SupplyLevels :
    (Settled up ∧ up.cfg.boot ≠ .noPower ∧ up.hubOn = true ∧ up.pwr.state ≠ 4 ∧ up.pwr.level = 0) ∧
    (¬ (-500 ≤ (60001 : Int) ∧ (60001 : Int) ≤ 60000) ∧ ¬ (-500 ≤ (-501 : Int) ∧ (-501 : Int) ≤ 60000) ∧
     (-500 ≤ (46001 : Int) ∧ (46001 : Int) ≤ 60000)) ∧
    ((([46001] : List Int).foldl (· + ·) 0) / 1 = 46001 ∧ (([46000] : List Int).foldl (· + ·) 0) / 1 = 46000) ∧
    (let s := { fed { level := 2, above := some 5 } with host := { ready := true } }
     Settled s ∧ s.pwr.above = some 5 ∧ s.pwr.level ≠ 0 ∧ s.host.st ≠ .recovering ∧ s.host.st ≠ .paused) ∧
    (let s := { inJob .running rootHdr [] [] with pwr := { level := 3, stopAt := some 7 } }
     Settled s ∧ s.pwr.stopAt = some 7 ∧ s.host.st = .running ∧ s.job ≠ none ∧ s.ue = [] ∧ Untraced s) := by decide +kernel

/-- R570: 34.9 V is WARN, 33.9 V INHIBIT; R539: 32.4 V while the job runs is STOP. -/
theorem test_supply : (after (.supplySample 34900 3000) up).pwr.level = 1 ∧ (after (.supplySample 33900 0) up).pwr.level = 2 ∧
    (after (.supplySample 32400 0) (inJob .running rootHdr [] [])).pwr.stopAt = some 1000 := by decide +kernel

/-- R672: 60.001 V is beyond the absolute maximum. -/
theorem test_beyond : exec (.supplySample 60001 0) up = .fault .beyondAbsoluteMaximum := rfl

/-- An image that passes: four components with IDs 1 to 4, and settings that change nothing. -/
def comp (n : Nat) : List W64 := [hdr 0x85 0, BitVec.ofNat 64 n ||| put 8 6 1, put 0 32 4992 ||| put 32 32 192, put 0 32 5184, 0, 0, 0, 0]
def flashImg (seq : Nat) : FlashSlot :=
  { hdr := [hdr 0x84 0, BitVec.ofNat 64 seq, 8192, put 0 32 64 ||| put 32 32 1856, 0, 0, 0, 0],
    entries := [comp 1, comp 2, comp 3, comp 4], settings := hdr 0x86 0 :: List.replicate 23 0,
    rootOk := true, ownerOk := true, compsOk := [true, true, true, true], settingOk := true, permDebug := false }

def romAt : State := { up with cfg := { boot := .rom }, host := {} }

theorem witness_StartUp :
    (Settled State.reset ∧ State.reset.hubOn = false ∧ State.reset.cfg.boot = .noPower) ∧
    (let s := { State.reset with cfg := { boot := .aon }, pwr := { okFrom := some 0, filtered := 36000, sysclk := true } }
     Settled s ∧ s.cfg.boot = .aon ∧ s.pwr.okFrom ≠ none ∧ 36000 ≤ s.pwr.filtered ∧ s.pwr.sysclk = true ∧ s.pwr.state ≠ 4 ∧ s.pwr.trip = false) ∧
    (Settled romAt ∧ romAt.cfg.boot = .rom ∧ romAt.imgCheck (flashImg 3) = .ok ∧ imgHdrCheck (flashImg 4) = .ok ∧
     romAt.imgCheck { flashImg 4 with ownerOk := false } ≠ .ok ∧ romAt.imgCheck noSlot ≠ .ok ∧ imgHdrCheck noSlot ≠ .ok ∧
     fld (wd (flashImg 3).hdr 1) 0 32 < fld (wd (flashImg 4).hdr 1) 0 32) := by decide +kernel

theorem witness_StartUp_end : (∀ b ∈ [Boot.released, .warm],
      let s := { up with cfg := { boot := b }, host := {} }
      Settled s ∧ s.cfg.boot = b ∧ (∀ q, q < 6 → (s.port q).role = 0 ∧ (s.port q).st = .down) ∧ s.job = none ∧
      setAux s.cfg.settings = none) ∧
    (let s := { up with cfg := { boot := .noImage }, host := {} }
     Settled s ∧ s.cfg.boot = .noImage ∧ s.host.ready = false) ∧
    (up.cfg.flashJob = none ∧ (put 1 1 1 ||| put 40 10 1 : W64).getLsbD 1 = true ∧ fld (put 1 1 1 ||| put 40 10 1 : W64) 0 1 = 0 ∧
     fld (put 1 1 1 ||| put 40 10 1 : W64) 40 10 = 1 ∧ b2n up.sec.image = 0 ∧ b2n { up.sec with image := true }.image = 1 ∧ up.host.st = .offline) ∧
    (let s := { up with cfg := { boot := .up, flashJob := some { slot := 1, src := 0, len := 1 } } }
     Settled s ∧ s.cfg.flashJob.isSome = true ∧ s.ue = []) := by decide +kernel

/-- R645: the slot of the greater sequence number runs; R646: the other when it fails. -/
theorem test_image : (after (.imageVerified (flashImg 3) (flashImg 4) true) romAt).sec.image = true ∧
    (after (.imageVerified (flashImg 3) { flashImg 4 with ownerOk := false } true) romAt).cfg.bootReg
      = put 1 1 1 ||| put 16 8 Status.signature.code ||| put 24 32 3 := by decide +kernel

def annOf (kind value goal : Nat) : Announce := { seq := 9, kind := kind, value := value, goal := goal, at_ := 4, polled := 4 }

theorem witness_FeedRegulator :
    (Settled up ∧ up.hubOn = true ∧ up.pwr.ann = none ∧ up.pwr.noAck = false ∧ up.pwr.state ≠ 2 ∧ up.pwr.state ≠ 3 ∧ up.pwr.wantSet = 0 ∧
     bit (up.host.msix 9) 32 = false) ∧
    ((fed { wantSet := 40000 }).pwr.wantSet ≠ (fed { wantSet := 40000 }).pwr.setpoint ∧ 5 ≤ (fed { granted := 5 }).pwr.granted) ∧
    (let s := fed { ann := some (annOf 1 100 200), granted := 300 }
     Settled s ∧ s.pwr.ann = some (annOf 1 100 200) ∧ (annOf 1 100 200).kind = 1 ∧ (9 : Byte).toNat = (annOf 1 100 200).seq) ∧
    (let s := fed { retryAt := some (0, 700, 10) }
     Settled s ∧ s.pwr.retryAt = some (0, 700, 10) ∧ s.pwr.ann = none) ∧
    (let s := fed { noAck := true, granted := 300 }
     Settled s ∧ s.pwr.noAck = true ∧ 800 ≤ s.pwr.granted + 500 ∧ s.pwr.granted ≤ 800 + 500) := by decide +kernel

/-- R543: an increase of 565 W is announced with a ramp of 57 us. -/
theorem test_mfr_step : (after (.mfrStep 0 565 0) up).pwr.lastStep = [1, 0, 0x35, 2, 57, 0] := by decide +kernel

/-- R545: READY under the same SEQ grants it. -/
theorem test_mfr_step_ack : (after (.mfrStepAck 9 1 0) (fed { ann := some (annOf 0 100 400), granted := 300 })).pwr.granted = 400 := by
  decide +kernel

theorem witness_PowerStates :
    (Settled up ∧ Untraced up ∧ up.hubOn = true ∧ (up.fold 0).clocked = true ∧ (up.fold 0).idle = true ∧ (run2 0 0 |>.fold 0).idle = false) ∧
    (let s := up.setFold 0 { island := { graze := true, held := [(3, 2)] } }
     Settled s ∧ (s.fold 0).island.graze = true ∧ (s.fold 0).island.held = [(3, 2)] ∧ (s.slot 0 3).waiters = []) ∧
    (∀ t ∈ [0, 1, 2, 3, 4, 5, 7],
      let s := queued up (cmdWords 0x0B 9 [BitVec.ofNat 64 t])
      Settled s ∧ s.cmdOf 0x0B = some (cmdOfWords (cmdWords 0x0B 9 [BitVec.ofNat 64 t])) ∧ fld (BitVec.ofNat 64 t) 0 3 = t ∧
      s.pwr.exiting = none ∧ s.pwr.wakes = [] ∧ s.pwr.state = 0) ∧
    (let s := { fed { state := 2 } with host := { queue := [cmdOfWords (cmdWords 0x0B 9 [0])] } }
     Settled s ∧ s.pwr.state = 2 ∧ s.pwr.wakes = [] ∧ s.sec.fuse = none) ∧
    (let s := { fed { entering := some (3, 5) } with host := { queue := [{ cmdOfWords (cmdWords 0x0B 9 [3]) with started := true }] } }
     Settled s ∧ s.cmdOf 0x0B = some { cmdOfWords (cmdWords 0x0B 9 [3]) with started := true } ∧ (s.trc 0).buf = [] ∧ (s.trc 1).buf = []) ∧
    (fed { entering := some (4, 5) }).pwr.entering = some (4, 5) := by decide +kernel

theorem witness_PowerStates_wake :
    (let s := fed { state := 2, timer := put 48 1 1 ||| put 0 48 77 }
     Settled s ∧ s.pwr.timer.getLsbD 48 = true ∧ s.pwr.wakes = []) ∧
    (let s := fed { state := 3, wakes := [(2, 5)], filtered := 35000 }
     Settled s ∧ s.pwr.entering = none ∧ s.pwr.exiting = none ∧ s.pwr.wakes = [(2, 5)] ∧ 35000 ≤ s.pwr.filtered ∧ s.pwr.noAck = false ∧ s.pwr.ann = none) ∧
    (let s := fed { state := 2, wakes := [(7, 5)], filtered := 34999 }
     s.pwr.wakes ≠ [] ∧ s.pwr.filtered < 35000) ∧
    (let s := fed { state := 3, exiting := some 5 }
     Settled s ∧ s.pwr.exiting = some 5 ∧ s.mbx.whist = [] ∧ (∀ q, q < 6 → (s.port q).rxq = [] ∧ (s.port q).st ≠ .reset)) := by decide +kernel

/-- R553: RUN may not be left for Off while the host is not OFFLINE. -/
theorem test_set_power : fld ((after .setPower { queued up (cmdWords 0x0B 9 [4]) with host := { (queued up (cmdWords 0x0B 9 [4])).host with st := .loaded } }).resWord 9 0) 56 8
    = Status.notInState.code := by decide +kernel

theorem witness_TemperatureCapAndManagement :
    (Settled up ∧ up.hubOn = true ∧ 0 ∉ up.pwr.therm ∧ bit (up.host.msix 9) 32 = false ∧
     (∀ x ∈ up.folds, x.2.island.boostMhz ≤ 1500)) ∧
    (let p := { filtered := 38000, tDie := 84, tStack := 79, pIn := 3700, cap := 3800 : Pwr }
     p.level = 0 ∧ 38000 ≤ p.filtered ∧ p.tDie < 85 ∧ p.tStack < 80 ∧ p.capped = 0 ∧ p.pIn + 100 ≤ fld p.cap 0 12 ∧ 0 ∉ p.therm) ∧
    (1800 < fld (fed {}).pwr.cap 0 12 ∧ fld (fed {}).pwr.cap 0 12 ≤ 3800) ∧
    (∀ st ∈ [0, 2, 3, 4], Settled (fed { i3c := true, state := st }) ∧ (fed { i3c := true, state := st }).pwr.i3c = true ∧
      (fed { i3c := true, state := st }).pwr.wakes = [] ∧ (fed { i3c := true, state := st }).pwr.entering = none) ∧ up.pwr.i3c = false := by
  decide +kernel

/-- R559: 115 °C of a die trips; 114 does not. -/
theorem test_trip : (after (.thermalTrip false 115) up).pwr.trip = true ∧ (after (.thermalTrip false 114) up).pwr.trip = false ∧
    (after (.thermalTrip true 105) up).hubOn = false := by decide +kernel

theorem test_cap : (after (.pwrCapWrite 1 1999) up).pwr.cap = put 0 12 2000 ||| put 12 1 1 := by decide +kernel

/-! ### Witnesses: security -/

/-- The security core has a request in private channel 65; a JTAG master has loaded one. -/
def asked (w : W64) : State := boxIs up 65 { word := w, full := true, sender := 1 }
def jtagUp : State := { up with sec := { tap := 0x10 } }
def jtagReq (w : W64) (bs : List Byte) : JtagReq := { word := w, buf := bs ++ List.replicate (4096 - bs.length) 0 }

theorem witness_Asks (w : W64) : Asks (asked w) none w ((asked w).updMbox 65 fun b => { b with full := false, word := 0 }) where
  settled := rfl
  hub := rfl
  idle := rfl
  room := rfl
  replies := rfl
  path := ⟨rfl, rfl, rfl⟩

theorem witness_Asks_jtag (w : W64) (bs : List Byte) (h : bs.length ≤ 4096) :
    Asks jtagUp (some (jtagReq w bs)) w { jtagUp with sec := { jtagUp.sec with buf := (jtagReq w bs).buf } } where
  settled := rfl
  hub := rfl
  idle := rfl
  room := rfl
  replies := rfl
  path := ⟨by simp [jtagReq]; omega, rfl, rfl, rfl⟩

/-- An unlock certificate (R594) of a level for this device and the nonce that was drawn first. -/
def cert (lv : Nat) : List W64 :=
  [hdr 0x80 0, Config.deviceId, Config.freeWord 0, Config.freeWord 1, Config.freeWord 2, Config.freeWord 3,
   BitVec.ofNat 64 lv ||| put 8 1 1, 0]

/-- UNLOCK meets every condition of its success: the certificate read from the buffer passes each check. -/
theorem witness_SecurityRequests :
    let r := jtagReq (put 0 8 2) (wordsBytes (cert 2))
    let c := leWords 8 ((r.buf.drop 0).take 64)
    c = cert 2 ∧ hdrVer c = 1 ∧ hdrType c = 0x80 ∧ fld (wd c 0) 12 20 = 0 ∧ bit (wd c 6) 9 = false ∧ fld (wd c 6) 14 50 = 0 ∧
    wd c 7 = 0 ∧ wd c 1 = Config.deviceId ∧ fld (wd c 6) 0 8 = 2 ∧ bit (wd c 6) 8 = true ∧
    (∀ i, i < 4 → wd c (2 + i) = Config.freeWord (0 + i)) ∧ (0 >>> fld (wd c 6) 10 2) % 2 = 0 ∧ 0 + (64 + 1793 + 1280) ≤ 4096 := by
  intro r c
  have e : c = cert 2 := by
    show leWords 8 (List.take 64 (wordsBytes (cert 2) ++ _)) = _
    rw [List.take_left' (by simp [cert]), ← List.append_nil (wordsBytes _)]
    exact leWords_wordsBytes (cert 2) []
  rw [e]
  refine ⟨rfl, by decide, by decide, by decide, by decide, by decide, rfl, rfl, by decide, by decide, ?_, by decide, by decide⟩
  intro i h
  obtain rfl | rfl | rfl | rfl : i = 0 ∨ i = 1 ∨ i = 2 ∨ i = 3 := by omega
  all_goals rfl

theorem witness_SecurityRequests_more :
    (∀ x ∈ [((0 : Nat), (0 : Nat)), (8, 0), (255, 0), (3, 3), (4, 4), (1, 1)], fld (put 0 8 x.1 : W64) 0 8 = x.1) ∧
    (asked 2).pwr.entering = none ∧ (asked 2).host.st ≠ .running ∧ (asked 2).host.st ≠ .recovering ∧ (asked 1).ue = [] ∧
    (asked 1).pageEntry 0 &&& 0x23 = 0x21 ∧ bit (wd (asked 4).cfg.settings 1) 1 = false ∧ up.sec.fuse = none ∧ (up.mbox 65).full = false := by
  decide +kernel

theorem witness_FuseRequests :
    (let s := { asked 5 with sec := { svns := [3, 2, 4], svnFloor := 1 } }
     s.host.st = .offline ∧ fld (5 : W64) 0 8 = 5 ∧ (s.sec.svns.min?).getD 0 = 2 ∧ s.sec.svnFloor < 2 ∧ s.pwr.level < 2) ∧
    (let j := { kind := 2, arg := 33, req := 5, jtag := true, cut := true : FuseJob }
     let s := { up with sec := { fuse := some j, svnFloor := 31 } }
     Settled s ∧ s.sec.fuse = some j ∧ j.cut = true ∧ s.sec.svnFloor < 32 ∧ 32 < j.arg) ∧
    (let s := { (queued up (cmdWords 0x0C 9 [])) with sec := { fuse := some { kind := 1, arg := 0, req := 0, jtag := false } }, dies := [(3, { soft := 2 })] }
     Settled s ∧ s.cmdOf 0x0C = some (cmdOfWords (cmdWords 0x0C 9 [])) ∧ s.softRepairs = 2) := by decide +kernel

/-- R576: a certificate of LEVEL 3, in a buffer, passes the checks of RMA with the nonce it names. -/
def certRma : List W64 := (cert 0).set 6 (BitVec.ofNat 64 3 ||| put 8 1 1)
theorem witness_FuseRequests_rma :
    let t := { jtagUp with sec := { jtagUp.sec with jtagN := some { draw := 0, at_ := 0 } } }
    (t.crtCheck certRma 6 true true true).1 = .ok := by
  simp [State.crtCheck, certRma, cert, State.pathNonce, jtagUp, nonceWords, wd, Status.andThen, firstFail, List.range, List.range.loop]
  decide +kernel

/-- R602: IDCODE shifts out 0x09620A8F, low byte first. -/
theorem test_idcode : (after .idcode up).rdata = [0x8F, 0x0A, 0x62, 0x09] ∧ (after .idcode up).sec.tap = 1 := by decide +kernel

theorem test_lock : (after (.lock none) { asked 3 with sec := { debug := 2 } }).sec.debug = 0 := by decide +kernel

theorem witness_IdentityAndDebugAccess :
    (Settled up ∧ up.hubOn = true ∧ up.cfg.boot = .up ∧ up.host.ready = true ∧ up.host.perst = false ∧ up.sec.idReady = false ∧
     up.sec.dbgKey = false ∧ up.cfg.boot ≠ .noPower ∧ up.host.st = .offline) ∧
    ({ up.sec with idReady := true }.idReady = true ∧ ({ up with cfg := { boot := .noImage } } : State).cfg.boot = .noImage) ∧
    (let s := { up with host := { ready := true, st := .loaded } }
     s.hubOn = true ∧ s.host.st ≠ .offline ∧ s.cfg.boot = .up) ∧
    (∀ d ∈ [1, 2],
      let s := { up with sec := { tap := 0x11, debug := d } }
      Settled s ∧ s.hubOn = true ∧ s.sec.tap = 0x11 ∧ s.sec.debug ≠ 0 ∧ s.ue = [] ∧ s.pwr.state ≠ 2 ∧ s.pwr.state ≠ 3 ∧
      s.accStatus (if d = 2 then 3 else 1) (if d = 2 then .write else .hostWrite) 0x1000 8 = .ok) ∧
    (place 0x032000000050 ≠ .nowhere ∧ 0x032000000050 % 8 = 0 ∧ place (2 ^ 42) = .nowhere) := by decide +kernel

/-- R600: D1 writes memory as the host does. -/
theorem test_dap : ((after (.dapAccess true 0x1000 77) { up with sec := { tap := 0x11, debug := 1 } }).bytesAt 0x1000 2) = [77, 0] ∧
    (after (.dapAccess true 0x1000 77) { up with sec := { tap := 0x11 } }).mem = [] := by decide +kernel

/-! ### Witnesses: debug -/

/-- The words of DBG_TRC_CTL for CD0: MODE 1, folds 0 to 5, EN or not; a region of four pages. -/
def trcCtl (more : W64) : W64 := put 16 4 1 ||| put 44 12 5 ||| more
def traced (t : Trc) : State := { up with cfg := { boot := .up, pages := some ((List.range 4).map fun q => (q + 8, 0x21)) }, dbg := { cd0 := t } }
def region : W64 := put 21 19 8 ||| put 40 14 4

theorem witness_TraceControl :
    (let s := traced { spill := region }
     Settled s ∧ s.hubOn = true ∧ s.host.ready = true ∧ (s.trc 0).ctl.getLsbD 0 = false ∧ (trcCtl 1).getLsbD 0 = true ∧
     (trcCtl 1).getLsbD 3 = false ∧ (trcCtl 1).getLsbD 4 = false ∧
     s.traceCheck 0 (setFld (trcCtl 1 &&& 0x00FFFFFF000FFFE7) 0 1 0) = .ok ∧ up.traceCheck 0 (trcCtl 0) ≠ .ok) ∧
    (let s := traced { spill := region, ctl := trcCtl 1, st := .running }
     (s.trc 0).ctl.getLsbD 0 = true ∧ setFld (trcCtl 0 &&& 0x00FFFFFF000FFFE7) 0 1 0 = setFld (s.trc 0).ctl 0 1 0 ∧
     setFld ((trcCtl 0x400) &&& 0x00FFFFFF000FFFE7) 0 1 0 ≠ setFld (s.trc 0).ctl 0 1 0 ∧
     setFld ((trcCtl 9) &&& 0x00FFFFFF000FFFE7) 0 1 0 = setFld (s.trc 0).ctl 0 1 0 ∧ (trcCtl 9).getLsbD 3 = true ∧
     setFld ((trcCtl 17) &&& 0x00FFFFFF000FFFE7) 0 1 0 = setFld (s.trc 0).ctl 0 1 0 ∧ (trcCtl 17).getLsbD 4 = true) := by decide +kernel

theorem witness_TraceControl_phases :
    (let s := traced { ctl := trcCtl 1, st := .running }
     let v : W64 := put 20 1 1 ||| put 5 1 1
     Settled s ∧ v.getLsbD 20 = true ∧ (s.trc 0).phase = .running ∧ v.getLsbD 5 = true ∧ (s.trc 0).ctl.getLsbD 5 = false ∧
     (s.trc 1).phase ≠ .running ∧ (s.trc 0).accepts = true ∧ (s.trc 1).accepts = false) ∧
    (let s := traced { ctl := trcCtl 1, st := .triggered }
     (s.trc 0).phase = .triggered ∧ (s.trc 0).post = 0 ∧ (s.trc 0).buf = [] ∧ (s.trc 1).st ≠ .frozen) ∧
    (let s := { up with dbg := { cd0 := { st := .triggered }, cd1 := { st := .frozen } } }
     (s.trc 1).st = .frozen ∧ bit (s.host.msix 11) 32 = false) ∧
    (let s := traced { ctl := trcCtl 1, st := .flushing, thaw := .running }
     (s.trc 0).st = .flushing ∧ (s.trc 0).buf = []) ∧
    (let s := traced { ctl := trcCtl (put 10 1 1 ||| put 11 5 10 ||| 1), st := .running }
     (s.trc 0).ctl.getLsbD 0 = true ∧ (s.trc 0).ctl.getLsbD 10 = true ∧ (s.trc 1).ctl.getLsbD 0 = false) := by decide +kernel

/-- R637: a second die frozen raises vector 5. -/
theorem test_freeze : (after (.traceFreeze 0) { up with dbg := { cd0 := { st := .triggered }, cd1 := { st := .frozen } } }).host.msi = [5] := by
  decide +kernel

theorem witness_Headcounts :
    (let s := { traced {} with dbg := { hcDest := put 21 19 8 } }
     Settled s ∧ s.hubOn = true ∧ s.host.ready = true ∧ (1 : W64).getLsbD 0 = true ∧ s.dbg.hcReq = none ∧
     fld s.dbg.hcDest 21 19 < 0x00F000000000 / 0x200000 ∧ s.pageEntry 8 &&& 0x2B = 0x21 ∧ (s.trc 0).holds 8 = false ∧ (s.trc 1).holds 8 = false) ∧
    (let s := { inJob .running rootHdr [] [] with dbg := { hcCtl := put 8 16 3, hcReq := some (5, 2) } }
     Settled s ∧ Untraced s ∧ s.ue = [] ∧ fld s.dbg.hcCtl 8 16 ≠ 0 ∧ s.host.st = .running ∧ s.dbg.hcReq = some (5, 2)) ∧
    ¬ (up.pageEntry 8 &&& 0x2B = 0x21) := by decide +kernel

/-- R630: a TAKE during a headcount is refused with BUSY. -/
theorem test_headcount : (after (.headcountTake 1 1) { up with dbg := { hcReq := some (5, 0) } }).dbg.hcErr = 9 := by decide +kernel

/-! ### Witnesses: every step -/

theorem witness_EveryStepKeepsMemoryAndQueue :
    (Memory.wf State.reset.mem = true ∧ Settled State.reset) ∧
    (let s := { poked up 0x1000 [5, 0, 7] with pending := [.secBeat, .supplySample 40000 0] }
     Memory.wf s.mem = true ∧ Settled s ∧ s.mem.length = 2 ∧ s.pending = .secBeat :: [.supplySample 40000 0]) := by decide +kernel

/-- A step takes the command at the front; on an empty queue a tick passes while the hub runs. -/
theorem test_step : step { up with pending := [.brownOut, .secBeat] } = exec .brownOut { up with pending := [.secBeat] } ∧
    step up = .next { up with now := 1 } := ⟨rfl, rfl⟩

/-! ### Witnesses: the further clauses -/

/-- A device none of whose folds listed grazes is awake; one none of whose ports listed is in RESET is unreset. -/
theorem awake_of {s : State} (h : ∀ x ∈ s.folds, x.2.island.graze = false) : Awake s :=
  fun f => SMap.get_all (P := fun v : Fold => v.island.graze = false) rfl h f
theorem unreset_of {s : State} (h : ∀ x ∈ s.ports, x.2.st ≠ .reset) : Unreset s :=
  fun p => SMap.get_all (P := fun v : Port => v.st ≠ .reset) (by decide) h p

theorem witness_Awake : (∀ s ∈ [chRuns, stRuns stCtx, gsRuns 0x31 0 3, recHeld .configured mirrorHdr copies 3 (mirPkt 0x800000)], Awake s) ∧
    ∀ g ∈ [none, some 5], Awake (stQ g) :=
  have h : (∀ s ∈ [chRuns, stRuns stCtx, gsRuns 0x31 0 3, recHeld .configured mirrorHdr copies 3 (mirPkt 0x800000)],
      ∀ x ∈ s.folds, x.2.island.graze = false) ∧
    ∀ g ∈ [none, some 5], ∀ x ∈ (stQ g).folds, x.2.island.graze = false := by decide +kernel
  ⟨fun s m => awake_of (h.1 s m), fun g m => awake_of (h.2 g m)⟩

theorem witness_Unreset : ∀ s ∈ [healed rootHdr, recHeld .running leafHdr {} 4 (mkCtrl 2 0 [put 63 1 1]), inJob .running rootHdr [] []],
    Unreset s :=
  have h : ∀ s ∈ [healed rootHdr, recHeld .running leafHdr {} 4 (mkCtrl 2 0 [put 63 1 1]), inJob .running rootHdr [] []],
      ∀ x ∈ s.ports, x.2.st ≠ .reset := by decide +kernel
  fun s m => unreset_of (h s m)

theorem witness_MatmulCompletes_more : 0 < mmK (mm1 0) ∧ mmK (mm1 0) ≤ 128 ∧ mmSpec (mm1 0) = false ∧
    (∀ r ∈ ((mmQ (2 ^ 14) none).fold 0).matRun, r.useSpec = false) := by decide +kernel

theorem witness_ChainCompletes_load : (cbUp.core 0 0).cbBanks = 0 ∧ cbUp.ue = [] ∧ (cbUp.fold 0).clocked = true ∧
    0x400 + 1024 ≤ foldSize - cbUp.fcBytes 0 := by decide +kernel

/-- A SEND on port 0, which is in service, and an EARLY LOAD whose gate no count opens. -/
def strWaits (d : Issued) : State := { up with ports := [(0, { st := .active, role := 6 })] }.updFold 0 fun v => { v with strQ := [d] }

theorem witness_StreamStarts_any :
    (let d := stIss (3 * 2 ^ 12) (2 ^ 40) none
     let s := strWaits d
     Settled s ∧ Untraced s ∧ s.ue = [] ∧ (s.fold 0).strQ = [d] ∧ s.freeCtx 0 = some 0 ∧ (s.fold 0).clocked = true ∧
     stKind d.words = kSEND ∧ s.inSvc (stRoute d.words - 1) = true) ∧
    (let d := stIss (2 ^ 17) 0 (some 9)
     let s := strWaits d
     s.freeCtx 0 = some 0 ∧ hdrType d.words = 0x30 ∧ stEarly d.words = true ∧ stKind d.words ≠ kSEND ∧ stSkip d.words = false) := by
  decide +kernel

/-- A write has told context 2 of a page of its source. -/
theorem witness_StreamProgress_notify :
    let n : Note := ⟨0, 2, (stackOf 0x1000).1, (stackOf 0x1000).2 / 4096⟩
    let s := { stRuns stCtx with notes := [n] }
    Settled s ∧ Untraced s ∧ s.ctx 0 2 = some stCtx ∧ (s.notes.find? fun n => n.fold = 0 && n.ctx = 2) = some n := by decide +kernel

/-- A transform of one line of FP32 (R316). -/
def tfRuns : State :=
  up.setCtx 0 2 (some { d := { words := [hdr 0x38 0, 0x40, 0x80, 0, 0, 0, 0, 0], subs := stSub } })

theorem witness_GatherScatterTransform_more : Settled tfRuns ∧ Untraced tfRuns ∧ tfRuns.ue = [] ∧ (tfRuns.fold 0).clocked = true ∧
    (tfRuns.ctx 0 2).isSome = true ∧ (∀ x ∈ tfRuns.folds, x.2.island.graze = false) ∧
    0 < ((gsIss 0x31 0).sub 0).dim 1 := by decide +kernel

/-- A scrubbed unit in error that is found again, and a row without errors that stand. -/
theorem witness_ScrubAndRepair_more :
    (let s := { up with ue := [⟨interOf 3 0, false, true⟩] }
     Settled s ∧ s.running = false ∧ s.ue = [⟨interOf 3 (64 * 0), false, true⟩]) ∧
    (∀ i, i < 16 → up.badAt (interOf 3 (64 * (16 * 7 + i))) = false) ∧ 8 * 0 < foldSize - up.fcBytes 0 := by decide +kernel

/-- A port that trains for a job that is loaded, and whose partner is the one listed. -/
def listedPort : State :=
  { port0 { st := .training, width := 3, role := 1 } with
    host := { st := .loaded, ready := true }, job := some { jobOf rootHdr with ports := [(0, 0)] } }

theorem witness_LinkTraining_job :
    (let s := listedPort
     Settled s ∧ Untraced s ∧ (s.port 0).st = .training ∧ (s.port 0).width ≠ 0 ∧ handshakeCheck (hs 2) = .ok ∧
     ((s.port 0).role, fld (wd (hs 2) 1) 16 3) ∈ [(1, 2), (2, 1), (3, 3), (4, 5), (5, 4), (6, 6)] ∧ s.jobId ≠ 0 ∧
     wd (hs 2) 2 = s.jobId ∧ fld (wd (hs 2) 1) 48 16 = fld ((jobOf rootHdr).ports.getD 0 (0, 0)).1 16 16 ∧ s.host.st = .loaded) ∧
    handshakeCheck ((hs 6).set 0 (hdr 0x40 (7 * 2 ^ 32))) = .ok := by decide +kernel

theorem witness_TimeAndCredits_more :
    (∀ n ∈ [0, 15, 16], let s := port0 { st := .training, role := 6, timeN := n }
      Settled s ∧ Untraced s ∧ (s.port 0).st = .training ∧ (s.port 0).timeN = n) ∧
    (let s := (holding 6 4 timeReply).updPort 0 fun x => { x with timeReq := [100] }
     (s.due = [] ∧ (s.trc 0).phase = .off ∧ (s.trc 1).phase = .off ∧ SMap.get [] (s.port 0).rxq 4 = [timeReply] ∧
      rxKind timeReply = .time ∧ s.rxWaiting timeReply = false) ∧ (s.port 0).timeReq = [100] ∧ (s.port 0).times = [] ∧ fld (100 : W64) 0 48 = timeReply.addr) := by decide +kernel

/-- A CMD whose ADDR is the hub's registers. -/
def cmdReg : Packet := mkPacket ptMSG 3 0 2 hubBase 0 0 0 (List.replicate 64 0)

theorem witness_CommandsTaken_register : Received (holding 6 3 cmdReg) 0 3 .cmd cmdReg [] ∧ isRegSpace cmdReg.addr = true ∧
    isRegSpace (cmdPkt 2).addr = false :=
  ⟨received_of (by decide +kernel), by decide +kernel, by decide +kernel⟩

theorem witness_CommitAndStopRecords_more :
    (∀ x ∈ [(({ stopped := true } : Res), mkCtrl 1 0 []), ({ stopped := true, resumeAt := some 0 }, mkCtrl 1 0 [])],
      let s := recHeld .recovering leafHdr x.1 4 x.2
      ready s (.ctrl 1) x.2 ∧ s.res.stopped = true ∧ s.res.devN = none) ∧
    (∀ r ∈ [({ stopped := true } : Res), { stopped := true, stopFwd := true }],
      let s := recHeld .recovering leafHdr r 4 (mkCtrl 7 0 [0x11])
      ready s (.ctrl 7) (mkCtrl 7 0 [0x11]) ∧ s.res.stopped = true ∧ s.host.st = .recovering ∧
      fld (wd (recWords (mkCtrl 7 0 [0x11])) 1) 0 8 ≠ Status.uncorrectable.code) ∧
    (wd (recWords (mkCtrl 9 0 [1])) 1).getLsbD 63 = false := by decide +kernel

/-- Folds whose clocks run and one, 3, whose clock has stopped. -/
theorem witness_Watching_clocks : (up.fold 160).clocked = true ∧ (up.fold 159).clocked = true ∧
    ((up.setFold 3 { island := { graze := true } }).fold 3).clocked = false ∧ up.jobLive = false := by decide +kernel

/-- A holder with units of an owner's slot: as many as the SHARE's rule counts (R443). -/
theorem witness_CopiesReceived_held (m : Nat) :
    ((List.replicate m ((1, 0, 0, 0) : Nat × Nat × Nat × Nat)).filter fun x =>
      decide (x.1 = 1) && decide (x.2.1 = 0) && decide (x.2.2.1 = 0)).length = m := by
  rw [List.filter_eq_self.mpr (fun x h => by rw [(List.mem_replicate.mp h).2]; rfl), List.length_replicate]

theorem witness_CopiesReceived_here :
    (let s := recHeld .recovering stripeHdr { stopped := true } 4 (stripePkt 0 0 0)
     ready s .share (stripePkt 0 0 0) ∧ (stOwner (stripePkt 0 0 0), stSlotB (stripePkt 0 0 0)) ∈ s.slotList ∧ s.hasStripe = true) ∧
    (let s := recHeld .recovering stripeHdr { stopped := true } 4 (stripePkt 2 0 0)
     ready s .restore (stripePkt 2 0 0) ∧ s.res.stopped = true ∧ s.res.resumeAt = none) := by decide +kernel

/-- A dword of configuration space in no capability, wherever those begin. -/
theorem witness_HostAccesses_config : ∃ n, 16 ≤ n ∧ capOf n = none := by
  refine ⟨Config.capAt 0 + Config.capAt 1 + Config.capAt 2 + Config.capAt 3 + 100, by omega, ?_⟩
  simp only [capOf, Option.map_eq_none_iff, List.find?_eq_none, List.mem_range]
  intro k hk
  obtain rfl | rfl | rfl | rfl : k = 0 ∨ k = 1 ∨ k = 2 ∨ k = 3 := by omega
  all_goals (simp [capLen]; omega)

theorem witness_HostAccesses_more :
    (∀ n ∈ [0, 1, 2, 3], let s := { up with host := { ready := true, aspm := n } }
      Settled s ∧ s.hubOn = true ∧ s.host.aspm = n ∧ s.host.perst = false) ∧
    (0x200FFFC / 0x10000 = 0x200 ∧ (up.inService 0 = true ∧ up.inService 335 = false) ∧ (0x200 + 335) * 0x10000 / 0x10000 = 0x200 + 335) ∧
    up.pwr.entering = none := by decide +kernel

/-- A change that takes a fold's pages: its island is in Rest, where it cannot prepare. -/
theorem witness_StagedChanges_unable :
    (staging []).holderRoom smallStaged.items = true ∧ (staging []).islandUnable 0x3FF = false ∧
    ({ staging [] with pwr := { state := 2 } } : State).islandUnable 16 = true ∧ (staging []).cfg.peerWord = none ∧
    (staging []).stageReady { smallStaged with answers := [] } = false := by decide +kernel

theorem witness_PowerStates_still : (∀ q, q < 6 → (up.port q).rxq = [] ∧ (up.port q).st ≠ .reset) ∧ up.sec.replies = [] ∧
    (fed { state := 2, wakes := [(5, 9)], filtered := 35000 }).pwr.exiting = none := by decide +kernel

/-- Two replies of the security core wait while channel 67 is full. -/
theorem witness_MailboxesAndCrooks_replies :
    let s := { boxIs up 67 { word := 7, full := true, sender := 3 } with sec := { replies := [5, 6] } }
    Settled s ∧ s.hubOn = true ∧ s.host.ready = true ∧ s.mboxRcv 67 = 1 ∧ s.sec.replies = 5 :: [6] ∧
    agentNo 1 = true ∧ agentNo 5 = false ∧ up.pwr.entering = none := by decide +kernel

/-- A hub whose mirror area a copy fills: no room for the copies of an entry that becomes M (R431). -/
def areaFull : State :=
  { recHeld .configured mirrorHdr { pair := { copies := [(1, 2 ^ 45, 0, 0)] } } 3 wakePkt with
    cfg := { boot := .up, stageSt := 2, staged := some { smallStaged with items := [(2, 1)] } },
    job := some { jobOf mirrorHdr with prot := [[hdr 0x30 0, 0x200000, 64, 0, 0, 0, 0, 0]] } }

theorem witness_StagedChanges_room : Settled areaFull ∧ areaFull.ue = [] ∧ areaFull.holderRoom [(2, 1)] = false ∧
    areaFull.host.st ≠ .recovering ∧ 0x3FF ∈ ({ smallStaged with items := [(2, 1)] } : Staged).islands areaFull := by decide +kernel

theorem witness_MemoryCompletions_fetch :
    (let s := waits .waitMem .fetch
     Settled s ∧ Untraced s ∧ s.ue = [] ∧ (s.fold 0).clocked = true ∧ (s.th t0).wait = .fetch ∧ s.asleep 0 (s.th t0).pc.toNat = false) ∧
    (waits .waitMem (.load 0x1000 8 3 true)).asleep 0 0x1000 = false := by decide +kernel

end Sys2Proof.Tests
end

section
/-!
The register file of a thread (R206, R207): what reading a register or a predicate gives after one was written.
-/
namespace Sys2Proof.Machine

/-! ### General registers -/

@[simp] theorem Thread.reg_zero (v : Thread) : v.reg 0 = 0 := rfl

@[simp] theorem Thread.setReg_zero (v : Thread) (x : W64) : v.setReg 0 x = v := rfl

theorem Thread.reg_of_ne_zero (v : Thread) {i : Nat} (h : i ≠ 0) : v.reg i = SMap.get 0 v.g i := if_neg h

theorem Thread.setReg_of_ne_zero (v : Thread) {rd : Nat} (h : rd ≠ 0) (x : W64) :
    v.setReg rd x = { v with g := SMap.set 0 v.g rd x } := if_neg h

/-- Reading any register after a write to any register (R207). -/
theorem Thread.reg_setReg (v : Thread) (i rd : Nat) (x : W64) :
    (v.setReg rd x).reg i = if i = rd ∧ rd ≠ 0 then x else v.reg i := by
  by_cases hrd : rd = 0
  · simp [hrd]
  rw [v.setReg_of_ne_zero hrd]
  by_cases hi : i = rd
  · rw [if_pos ⟨hi, hrd⟩, hi, Thread.reg_of_ne_zero _ hrd, SMap.get_set_same]
  · rw [if_neg fun h => hi h.1, Thread.reg, SMap.get_set_other _ _ _ hi, Thread.reg]

/-! ### Predicates -/

@[simp] theorem Thread.pred_zero (v : Thread) : v.pred 0 = true := rfl

@[simp] theorem Thread.setPred_zero (v : Thread) (b : Bool) : v.setPred 0 b = v := rfl

theorem Thread.pred_of_ne_zero (v : Thread) {i : Nat} (h : i ≠ 0) : v.pred i = v.p.getLsbD i := by simp [Thread.pred, h]

theorem Thread.setPred_of_ne_zero (v : Thread) {rd : Nat} (h : rd ≠ 0) (b : Bool) :
    v.setPred rd b =
      { v with p := if b then v.p ||| BitVec.ofNat 8 (2 ^ rd) else v.p &&& ~~~(BitVec.ofNat 8 (2 ^ rd)) } := if_neg h

/-- The mask of predicate `rd` has that bit alone. -/
theorem getLsbD_predMask {i : Nat} (hi : i < 8) (rd : Nat) : (BitVec.ofNat 8 (2 ^ rd)).getLsbD i = decide (rd = i) := by
  rw [BitVec.getLsbD_ofNat, Nat.testBit_two_pow, decide_eq_true hi, Bool.true_and]

/-- The predicate byte after a write: the bit written holds `b`, the others what they held. -/
theorem Thread.getLsbD_setPred (v : Thread) {i rd : Nat} (hi : i < 8) (hrd : rd ≠ 0) (b : Bool) :
    (v.setPred rd b).p.getLsbD i = if i = rd then b else v.p.getLsbD i := by
  rw [v.setPred_of_ne_zero hrd]
  cases b with
  | true =>
    rw [if_pos rfl, BitVec.getLsbD_or, getLsbD_predMask hi]
    by_cases h : i = rd <;> simp [h, eq_comm (a := rd)]
  | false =>
    rw [if_neg Bool.false_ne_true, BitVec.getLsbD_and, BitVec.getLsbD_not, getLsbD_predMask hi, decide_eq_true hi]
    by_cases h : i = rd <;> simp [h, eq_comm (a := rd)]

/-- Reading any predicate after a write to any predicate (R207). -/
theorem Thread.pred_setPred (v : Thread) {i : Nat} (hi : i < 8) (rd : Nat) (b : Bool) :
    (v.setPred rd b).pred i = if i = rd ∧ rd ≠ 0 then b else v.pred i := by
  by_cases hrd : rd = 0
  · simp [hrd]
  by_cases h0 : i = 0
  · simp [h0, Ne.symm hrd]
  rw [Thread.pred_of_ne_zero _ h0, v.getLsbD_setPred hi hrd, v.pred_of_ne_zero h0]
  simp [hrd]

/-- Settles O6: the register after a write is read off the sparse map, the predicate off the bit of the mask; g0 and p0
are stored nowhere, so a write to them is discarded. -/
theorem registerFile : Obligations.RegisterFile :=
  fun v i rd x b _ _ => ⟨v.reg_zero, v.pred_zero, v.setReg_zero x, v.setPred_zero b, v.reg_setReg i rd x,
    fun hi _ => v.pred_setPred hi rd b⟩

end Sys2Proof.Machine
end

section
/-!
Accesses to the registers of the hub by a requester that reaches them (R482, R485–R487), and the two commands on result
slots (R506–R508).
-/
namespace Sys2Proof.Machine

/-! ### Accesses to hub registers -/

section Hub
variable {s : State} {who : Nat}

/-- BAR0 shuts the host out only until the device is ready (R482). -/
theorem not_shutOut (up : who = 1 → s.host.ready = true) : (decide (who = 1) && !s.host.ready) = false := by
  by_cases h : who = 1
  · simp [up h]
  · simp [h]

variable (hub : s.hubOn = true) (up : who = 1 → s.host.ready = true)
include hub up

/-- A read of a hub register by a requester that BAR0 answers. -/
theorem State.busRead_hub (off : Nat) : s.busRead who (.hub off) =
    (s.rdHub who off).1.answerWord ((s.rdHub who off).2.getD (Config.noRegister (2 ^ 33 + off))) := by
  simp [State.busRead, hub, not_shutOut up, State.rouseAt, State.readReg]

/-- A write of a hub register by a requester that BAR0 answers. -/
theorem State.busWrite_hub (off : Nat) (v : W64) : s.busWrite who (.hub off) v = s.wrHub who off v := by
  simp [State.busWrite, hub, not_shutOut up, State.rouseAt, State.writeReg]

end Hub

/-! ### Bits of a word of fields -/

theorem testBit_fld (w : W64) (lo len i : Nat) : (fld w lo len).testBit i = (decide (i < len) && w.getLsbD (lo + i)) := by
  rw [fld, Nat.testBit_mod_two_pow, Nat.testBit_shiftRight, BitVec.testBit_toNat]

theorem getLsbD_put (lo len v i : Nat) :
    (put lo len v).getLsbD i = (decide (i < 64) && (decide (lo ≤ i) && (decide (i - lo < len) && v.testBit (i - lo)))) := by
  rw [put, BitVec.getLsbD_ofNat, Nat.testBit_shiftLeft, Nat.testBit_mod_two_pow]

/-! ### Result slots (R506–R508) -/

/-- Word 0 of a result slot once it is released: SEQ and GEN stay (R508). -/
def freedWord (w : W64) : W64 := put 0 32 (fld w 0 32) ||| put 32 16 (fld w 32 16)

/-- A freed word keeps its low 48 bits and no other. -/
theorem getLsbD_freedWord (w : W64) (i : Nat) : (freedWord w).getLsbD i = (decide (i < 48) && w.getLsbD i) := by
  simp only [freedWord, BitVec.getLsbD_or, getLsbD_put, testBit_fld]
  rcases Nat.lt_or_ge i 32 with h | h
  · have h' : ¬ 32 ≤ i := by omega
    simp [h, h', show i < 64 by omega, show i < 48 by omega]
  · rcases Nat.lt_or_ge i 48 with h' | h'
    · simp [h, h', show ¬ i < 32 by omega, show i < 64 by omega, show i - 32 < 16 by omega]
    · simp [show ¬ i < 32 by omega, show ¬ i < 48 by omega, show ¬ i - 32 < 16 by omega]

theorem fld_freedWord_kept (w : W64) {lo len : Nat} (h : lo + len ≤ 48) : fld (freedWord w) lo len = fld w lo len := by
  refine Nat.eq_of_testBit_eq fun i => ?_
  rw [testBit_fld, testBit_fld, getLsbD_freedWord]
  by_cases hi : i < len
  · simp [show lo + i < 48 by omega]
  · simp [hi]

theorem fld_freedWord_cleared (w : W64) {lo : Nat} (h : 48 ≤ lo) (len : Nat) : fld (freedWord w) lo len = 0 := by
  refine Nat.eq_of_testBit_eq fun i => ?_
  rw [testBit_fld, getLsbD_freedWord, Nat.zero_testBit]
  simp [show ¬ lo + i < 48 by omega]

theorem bit_freedWord_cleared (w : W64) {i : Nat} (h : 48 ≤ i) : bit (freedWord w) i = false := by
  rw [bit, getLsbD_freedWord]
  simp [show ¬ i < 48 by omega]

@[simp] theorem State.resWord_setRes (s : State) (k i : Nat) (w : W64) : (s.setRes k i w).resWord k i = w :=
  SMap.get_set_same ..

/-- A slot has eight words: writing word 0 of one leaves every other word of every slot. -/
theorem State.resWord_setRes_zero_other (s : State) {k i j : Nat} (w : W64) (hj : j < 8) (h : (i, j) ≠ (k, 0)) :
    (s.setRes k 0 w).resWord i j = s.resWord i j := by
  refine SMap.get_set_other _ _ _ fun e => h ?_
  rw [show i = k by omega, show j = 0 by omega]

/-- The bytes of result slot `slot` that a read of `len` bytes from `word` on returns. -/
def State.resBytes (s : State) (slot word len : Nat) : List Byte :=
  ((wordsBytes ((List.range 8).map (s.resWord slot))).drop (8 * word)).take len

/-- A read of a slot that is BUSY and not READY is counted (R506). -/
theorem opResultRead_early {s : State} (ready : s.host.ready = true) {slot : Nat} (word len : Nat)
    (busy : bit (s.resWord slot 0) 49 = true) (early : bit (s.resWord slot 0) 48 = false) :
    opResultRead s slot word len =
      (s.hostRegs fun r => { r with cnt := bumpFld r.cnt 32 32 1 }).answer (s.resBytes slot word len) := by
  simp only [opResultRead, ready, busy, early]
  rfl

theorem opResultRead_quiet {s : State} (ready : s.host.ready = true) {slot : Nat} (word len : Nat)
    (h : ¬ (bit (s.resWord slot 0) 49 = true ∧ bit (s.resWord slot 0) 48 = false)) :
    opResultRead s slot word len = s.answer (s.resBytes slot word len) := by
  have h' : (bit (s.resWord slot 0) 49 && !bit (s.resWord slot 0) 48) = false := by simpa using h
  simp only [opResultRead, ready, h']
  rfl

theorem exec_resultSlotRead (slot : Fin 256) (word : Fin 8) (len : Nat) (s : State) :
    exec (.resultSlotRead slot word len) s = done (opResultRead s slot.val word.val len) := rfl

theorem exec_hstResAck {s : State} (hub : s.hubOn = true) (ready : s.host.ready = true) (v : W64) :
    exec (.hstResAck v) s = done (opResAck s v) :=
  congrArg done (State.busWrite_hub hub (fun _ => ready) 0x20 v)

/-- An acknowledge that names a READY slot by its SEQ (R507). -/
theorem opResAck_release {s : State} (ready : s.host.ready = true) {v : W64}
    (isReady : bit (s.resWord (fld v 0 8) 0) 48 = true)
    (named : fld (s.resWord (fld v 0 8) 0) 0 32 = fld v 32 32) :
    opResAck s v = s.setRes (fld v 0 8) 0 (freedWord (s.resWord (fld v 0 8) 0)) := by
  simp [opResAck, ready, isReady, named, freedWord]

/-- Any other acknowledge is STALE (R508). -/
theorem opResAck_stale {s : State} (ready : s.host.ready = true) {v : W64}
    (h : ¬ (bit (s.resWord (fld v 0 8) 0) 48 = true ∧ fld (s.resWord (fld v 0 8) 0) 0 32 = fld v 32 32)) :
    opResAck s v = s.hostRegs fun r => { r with cnt := bumpFld r.cnt 0 16 1 } := by
  simp [opResAck, ready, h]

/-- Settles O44: the count of early reads and STALE_ACK are fields of HST_CNT, and the word that an acknowledge leaves in
a slot holds nothing but SEQ and GEN. -/
theorem resultSlots : Obligations.ResultSlots := by
  intro s slot word len v settled hub ready r bytes w k ack
  refine ⟨fun busy early => ?_, fun quiet => ?_, fun isReady named => ?_, fun stale => ?_⟩
  · rw [exec_resultSlotRead, opResultRead_early ready _ _ busy early]
    exact done_of_settled settled
  · rw [exec_resultSlotRead, opResultRead_quiet ready _ _ quiet]
    exact done_of_settled settled
  · refine ⟨s.setRes k 0 (freedWord ack), ?_, rfl, ?_⟩
    · rw [exec_hstResAck hub ready, opResAck_release ready isReady named]
      exact done_of_settled settled
    · rw [State.resWord_setRes]
      exact ⟨fld_freedWord_kept ack (by decide), fld_freedWord_kept ack (by decide),
        bit_freedWord_cleared ack (by decide), bit_freedWord_cleared ack (by decide),
        fld_freedWord_cleared ack (by decide) 8,
        fun i j h hj => s.resWord_setRes_zero_other (freedWord ack) hj h⟩
  · rw [exec_hstResAck hub ready, opResAck_stale ready stale]
    exact done_of_settled settled

end Sys2Proof.Machine
end

section
/-!
Mailboxes (R509, R511–R517, R531) and crooks (R518–R520, R532).
-/
namespace Sys2Proof.Machine

/-! ### Rows of registers -/

/-- Register `i` of a row is found at its offset. -/
theorem rowIdx_mul (base : Nat) {step n i : Nat} (hs : 0 < step) (hi : i < n) :
    rowIdx (base + step * i) base step n = some i := by
  have h : step * i < step * n := (Nat.mul_lt_mul_left hs).mpr hi
  simp [rowIdx, h, Nat.mul_div_cancel_left i hs]

theorem rowIdx_above {off base step n : Nat} (h : base + step * n ≤ off) : rowIdx off base step n = none := by
  have beyond : ¬ off < base + step * n := Nat.not_lt.mpr h
  simp only [rowIdx, beyond, decide_false, Bool.and_false, Bool.false_and, Bool.false_eq_true, if_false]

/-- Register `r` of mailbox `n`: four 64-bit registers each. -/
theorem rowIdx_mailbox (n : Fin 72) {r : Nat} (hr : r < 4) :
    rowIdx ((32 * n.val + 8 * r) / 8 * 8) 0 8 288 = some (4 * n.val + r) := by
  have e : (32 * n.val + 8 * r) / 8 * 8 = 0 + 8 * (4 * n.val + r) := by omega
  rw [e, rowIdx_mul 0 (by decide) (by omega)]

theorem State.rdMbx_take (s : State) (who : Nat) (n : Fin 72) :
    s.rdMbx who (32 * n.val + 8) = (opTake s who n.val, some (opTake s who n.val).ofWord) := by
  have e := rowIdx_mailbox n (r := 1) (by decide)
  simp only [Nat.mul_one] at e
  simp only [State.rdMbx, e, show (4 * n.val + 1) % 4 = 1 by omega, show (4 * n.val + 1) / 4 = n.val by omega]

theorem State.rdMbx_sts (s : State) (who : Nat) (n : Fin 72) :
    s.rdMbx who (32 * n.val + 16) = (opMboxSts s who n.val, some (opMboxSts s who n.val).ofWord) := by
  have e := rowIdx_mailbox n (r := 2) (by decide)
  simp only [State.rdMbx, e, show (4 * n.val + 2) % 4 = 2 by omega, show (4 * n.val + 2) / 4 = n.val by omega]

theorem State.rdMbx_crook (s : State) (who : Nat) (k : Fin 32) :
    s.rdMbx who (0x1000 + 8 * k.val) = (opCrookRead s who k.val, some (opCrookRead s who k.val).ofWord) := by
  have e : rowIdx ((0x1000 + 8 * k.val) / 8 * 8) 0 8 288 = none := rowIdx_above (by omega)
  have e' : rowIdx (0x1000 + 8 * k.val) 0x1000 8 32 = some k.val := rowIdx_mul _ (by decide) k.isLt
  simp only [State.rdMbx, e, e']

theorem State.wrMbx_data (s : State) (who : Nat) (n : Fin 72) (v : W64) :
    s.wrMbx who (32 * n.val) v = opMboxWrite s who n.val v := by
  have e : rowIdx (32 * n.val) 0 32 72 = some n.val := by simpa using rowIdx_mul 0 (by decide : 0 < 32) n.isLt
  simp only [State.wrMbx, e]

theorem State.wrMbx_crook (s : State) (who : Nat) (k : Fin 32) (v : W64) :
    s.wrMbx who (0x1000 + 8 * k.val) v = opCrookWrite s who k.val v := by
  have e : rowIdx (0x1000 + 8 * k.val) 0 32 72 = none := rowIdx_above (by omega)
  have e' : rowIdx (0x1000 + 8 * k.val) 0x1000 8 32 = some k.val := rowIdx_mul _ (by decide) k.isLt
  simp only [State.wrMbx, e, e']

/-- The block of mailboxes and crooks begins at 0x100000 of the hub (R39). -/
theorem State.rdHub_mbx (s : State) (who : Nat) {off : Nat} (h : off < 0x100000) :
    s.rdHub who (0x100000 + off) = s.rdMbx who off := by
  simp only [State.rdHub, show ¬ 0x100000 + off < 0x100000 by omega, show 0x100000 + off < 0x200000 by omega, if_false,
    if_true, Nat.add_sub_cancel_left]

theorem State.wrHub_mbx (s : State) (who : Nat) {off : Nat} (h : off < 0x100000) (v : W64) :
    s.wrHub who (0x100000 + off) v = s.wrMbx who off v := by
  simp only [State.wrHub, show ¬ 0x100000 + off < 0x100000 by omega, show 0x100000 + off < 0x200000 by omega, if_false,
    if_true, Nat.add_sub_cancel_left]

/-- The crooks stand 0x1000 into the block. -/
theorem hubReg_crook (off : Nat) : hubReg 0x101000 off = hubReg 0x100000 (0x1000 + off) :=
  congrArg Place.hub (Nat.add_assoc 0x100000 0x1000 off)

/-! ### The five commands

Each is one access to the mailbox block: it leaves the state t that the shared operation of chapter 13 leaves. -/

section Commands
variable {s : State} {who : Nat}

/-- A read that hands its requester the word it has just answered. -/
theorem State.answerWord_ofWord {t : State} {w : W64} (h : t.rdata = leBytes 8 w.toNat) : t.answerWord t.ofWord = t := by
  rw [State.ofWord, h, ofNat_leNat_leBytes, State.answerWord, State.answer, ← h]

variable (hub : s.hubOn = true) (up : who = 1 → s.host.ready = true)
include hub up

/-- A read in the mailbox block whose register is a row of chapter 13, which leaves t and answers w. -/
theorem State.busRead_mbx {off : Nat} (h : off < 0x100000)
    {t : State} (e : s.rdMbx who off = (t, some t.ofWord)) {w : W64} (hw : t.rdata = leBytes 8 w.toNat) :
    s.busRead who (hubReg 0x100000 off) = t := by
  rw [hubReg, State.busRead_hub hub up, State.rdHub_mbx s who h, e]
  exact State.answerWord_ofWord hw

theorem State.busWrite_mbx {off : Nat} (h : off < 0x100000) (v : W64) :
    s.busWrite who (hubReg 0x100000 off) v = s.wrMbx who off v := by
  rw [hubReg, State.busWrite_hub hub up, State.wrHub_mbx s who h]

theorem exec_mbxDataWrite (n : Fin 72) (v : W64) {t : State} (e : (s.mboxWrite n.val who v).1 = t) (settled : Settled t) :
    exec (.mbxDataWrite who n v) s = .next t := by
  change done (s.busWrite who (hubReg 0x100000 (32 * n.val)) v) = _
  rw [State.busWrite_mbx hub up (by omega), State.wrMbx_data, opMboxWrite, e, done_of_settled settled]

theorem exec_mbxTake (n : Fin 72) {t : State} (e : opTake s who n.val = t) {w : W64}
    (hw : t.rdata = leBytes 8 w.toNat) (settled : Settled t) :
    exec (.mbxTake who n) s = .next t := by
  change done (s.busRead who (hubReg 0x100000 (32 * n.val + 8))) = _
  rw [State.busRead_mbx hub up (by omega) (e ▸ State.rdMbx_take s who n) hw, done_of_settled settled]

theorem exec_mbxStsRead (n : Fin 72) {t : State} (e : opMboxSts s who n.val = t) {w : W64}
    (hw : t.rdata = leBytes 8 w.toNat) (settled : Settled t) :
    exec (.mbxStsRead who n) s = .next t := by
  change done (s.busRead who (hubReg 0x100000 (32 * n.val + 16))) = _
  rw [State.busRead_mbx hub up (by omega) (e ▸ State.rdMbx_sts s who n) hw, done_of_settled settled]

theorem exec_crookRead (k : Fin 32) {t : State} (e : opCrookRead s who k.val = t) {w : W64}
    (hw : t.rdata = leBytes 8 w.toNat) (settled : Settled t) :
    exec (.crookRead who k) s = .next t := by
  change done (s.busRead who (hubReg 0x101000 (8 * k.val))) = _
  rw [hubReg_crook, State.busRead_mbx hub up (by omega) (e ▸ State.rdMbx_crook s who k) hw, done_of_settled settled]

theorem exec_crookWrite (k : Fin 32) (v : W64) {t : State} (e : opCrookWrite s who k.val v = t) (settled : Settled t) :
    exec (.crookWrite who k v) s = .next t := by
  change done (s.busWrite who (hubReg 0x101000 (8 * k.val)) v) = _
  rw [hubReg_crook, State.busWrite_mbx hub up (by omega), State.wrMbx_crook, e, done_of_settled settled]

end Commands

/-! ### Who may use a mailbox -/

theorem secureAgent_iff (who : Nat) : secureAgent who = true ↔ who = 2 ∨ who = 3 ∨ who = 4 := by
  simp [secureAgent, or_assoc]

theorem mboxSecure_iff (n : Nat) : mboxSecure n = true ↔ n < 16 ∨ 68 ≤ n := by
  simp only [mboxSecure, Bool.or_eq_true, decide_eq_true_eq]

theorem mboxOpen_iff (n who : Nat) :
    mboxOpen n who = true ↔ (n < 16 ∨ 68 ≤ n → who = 2 ∨ who = 3 ∨ who = 4) := by
  rw [← secureAgent_iff, ← mboxSecure_iff, mboxOpen]
  cases mboxSecure n <;> simp only [Bool.not_false, Bool.not_true, Bool.true_or, Bool.false_or, Bool.false_eq_true,
    false_implies, true_implies]

theorem crookOpen_iff (k who : Nat) : crookOpen k who = true ↔ 8 ≤ k ∨ who = 2 ∨ who = 3 ∨ who = 4 := by
  rw [← secureAgent_iff]
  simp [crookOpen]

/-- The senders of R517 on channels 64 to 71; below them, any agent where the mailbox is not secure (R531). -/
theorem mboxMay_iff {n : Nat} (hn : n < 72) (who : Nat) : mboxMay n who = true ↔
    (64 ≤ n → ([1, 1, 2, 3, 2, 3, 4, 4] : List Nat)[n - 64]? = some who) ∧
      (n < 16 → who = 2 ∨ who = 3 ∨ who = 4) := by
  rw [← secureAgent_iff]
  by_cases h : 64 ≤ n
  · have hlen : n - 64 < ([1, 1, 2, 3, 2, 3, 4, 4] : List Nat).length := by simp; omega
    simp [mboxMay, h, chanSnd, List.getD, List.getElem?_eq_getElem hlen, show ¬ n < 16 by omega]
  · have secure : mboxSecure n = decide (n < 16) := by
      simp only [mboxSecure, show ¬ 68 ≤ n by omega, decide_false, Bool.or_false]
    by_cases low : n < 16
    · simp only [mboxMay, h, secure, low, if_false, decide_true, Bool.not_true, Bool.false_or, false_implies, true_implies,
        true_and]
    · simp only [mboxMay, h, secure, low, if_false, decide_false, Bool.not_false, Bool.true_or, false_implies, true_and]

/-- The receiver alone takes a word; a fold receives by its core 0 (R511, R513). -/
theorem State.mboxTaker_iff (s : State) (n who : Nat) : s.mboxTaker n who = true ↔
    s.mboxRcv n ≠ 0 ∧ (s.mboxRcv n = who ∨
      (16 ≤ s.mboxRcv n ∧ s.mboxRcv n ≤ 351 ∧ who = 1024 + 8 * (s.mboxRcv n - 16))) := by
  by_cases h : 16 ≤ s.mboxRcv n ∧ s.mboxRcv n ≤ 351
  · simp [State.mboxTaker, rcvFold, h]
  · have : ¬ (16 ≤ s.mboxRcv n ∧ s.mboxRcv n ≤ 351 ∧ who = 1024 + 8 * (s.mboxRcv n - 16)) :=
      fun ⟨a, b, _⟩ => h ⟨a, b⟩
    simp [State.mboxTaker, rcvFold, h, this]

/-! ### What a mailbox's own update leaves -/

theorem State.fldMapReg_of_cfg {s t : State} (h : t.cfg = s.cfg) (n : Nat) : t.fldMapReg n = s.fldMapReg n := by
  rw [State.fldMapReg, State.fldMapReg, h]

theorem State.physFrom_of_cfg {s t : State} (h : t.cfg = s.cfg) (k n : Nat) :
    State.physFrom k t n = State.physFrom k s n := by
  induction k generalizing n with
  | zero => rfl
  | succ k ih => simp only [State.physFrom, State.fldMapReg_of_cfg h, ih]

/-- The receiver of a mailbox follows from the configuration and the job alone. -/
theorem State.mboxRcv_of_cfg {s t : State} (h : t.cfg = s.cfg) (hj : t.job = s.job) (n : Nat) :
    t.mboxRcv n = s.mboxRcv n := by
  have e : t.mboxCfg n = s.mboxCfg n := by rw [State.mboxCfg, State.mboxCfg, h, hj]
  simp only [State.mboxRcv, e, State.physOf, State.physFrom_of_cfg h]

section Update
variable (s : State) (n : Nat) (g : MBox → MBox)

@[simp] theorem State.updMbox_mboxRcv (m : Nat) : (s.updMbox n g).mboxRcv m = s.mboxRcv m :=
  State.mboxRcv_of_cfg (s := s) (t := s.updMbox n g) rfl rfl m

@[simp] theorem State.mbox_updMbox : (s.updMbox n g).mbox n = g (s.mbox n) := SMap.get_set_same ..

end Update

/-- A word and its sender are put into a mailbox (R512). -/
def State.storeMbox (s : State) (n who : Nat) (w : W64) : State :=
  s.updMbox n fun b => { b with word := w, full := true, sender := who }

@[simp] theorem State.storeMbox_mboxRcv (s : State) (n who : Nat) (w : W64) (m : Nat) :
    (s.storeMbox n who w).mboxRcv m = s.mboxRcv m := State.updMbox_mboxRcv ..

@[simp] theorem State.mbox_storeMbox (s : State) (n who : Nat) (w : W64) :
    (s.storeMbox n who w).mbox n = { s.mbox n with word := w, full := true, sender := who } := State.mbox_updMbox ..

/-- The word of a mailbox is answered and taken out (R513). -/
def State.takeMbox (s : State) (n : Nat) : State :=
  (s.updMbox n fun b => { b with full := false, word := 0 }).answerWord (s.mbox n).word

@[simp] theorem State.full_takeMbox (s : State) (n : Nat) : ((s.takeMbox n).mbox n).full = false :=
  congrArg MBox.full (State.mbox_updMbox ..)

section Raise
variable (s : State) (v : Nat)

theorem State.raise_unmasked {s : State} {v : Nat} (h : bit (s.host.msix (2 * v + 1)) 32 = false) :
    s.raise v = { s with host := { s.host with msi := s.host.msi ++ [v] } } := by
  simp [State.raise, h]

theorem State.raise_masked {s : State} {v : Nat} (h : bit (s.host.msix (2 * v + 1)) 32 = true) :
    s.raise v = { s with host := { s.host with pba := s.host.pba ||| put v 1 1 } } := by
  simp [State.raise, h]

/-- Raising a vector changes the host interface alone. -/
theorem State.raise_eq : s.raise v = { s with host := (s.raise v).host } := by
  simp only [State.raise]
  split <;> rfl

@[simp] theorem State.raise_mbx : (s.raise v).mbx = s.mbx := by rw [State.raise_eq]
@[simp] theorem State.raise_sec : (s.raise v).sec = s.sec := by rw [State.raise_eq]
@[simp] theorem State.raise_rdata : (s.raise v).rdata = s.rdata := by rw [State.raise_eq]
@[simp] theorem State.raise_due : (s.raise v).due = s.due := by rw [State.raise_eq]
@[simp] theorem State.raise_mbox (n : Nat) : (s.raise v).mbox n = s.mbox n := by simp [State.mbox]

end Raise

/-! ### Writes (R512, R513, R517) -/

section Write
variable {s : State} {n who : Nat} (hn : n < 72) (agent : agentNo who = true) (w : W64)
include hn agent

theorem State.mboxWrite_refused (h : ¬ (mboxMay n who = true ∧ (64 ≤ n ∨ fld (s.mboxCfg n) 0 13 ≠ 0))) :
    (s.mboxWrite n who w).1 = s.updMbox n fun b => { b with refused := satAdd 16 b.refused 1 } := by
  by_cases may : mboxMay n who = true
  · have unused : n < 64 ∧ fld (s.mboxCfg n) 0 13 = 0 := by
      simpa [may] using h
    simp [State.mboxWrite, agent, may, unused, Nat.not_le.mpr hn]
  · simp [State.mboxWrite, agent, may, Nat.not_le.mpr hn]

variable (may : mboxMay n who = true) (used : 64 ≤ n ∨ fld (s.mboxCfg n) 0 13 ≠ 0)
include may used

theorem State.mboxWrite_lost (full : (s.mbox n).full = true) :
    (s.mboxWrite n who w).1 = s.updMbox n fun b => { b with lost := satAdd 16 b.lost 1 } := by
  have h : ¬ (n < 64 ∧ fld (s.mboxCfg n) 0 13 = 0) := fun ⟨a, b⟩ => used.elim (by omega) (· b)
  simp [State.mboxWrite, agent, may, h, full, Nat.not_le.mpr hn]

theorem State.mboxWrite_stored (empty : (s.mbox n).full = false) :
    (s.mboxWrite n who w).1 = (s.storeMbox n who w).mboxNotify n := by
  have h : ¬ (n < 64 ∧ fld (s.mboxCfg n) 0 13 = 0) := fun ⟨a, b⟩ => used.elim (by omega) (· b)
  simp [State.mboxWrite, agent, may, h, empty, Nat.not_le.mpr hn, State.storeMbox]

end Write

/-! ### Telling the receiver (R509, R515, R516) -/

/-- The shepherd and the security core are told nothing: they read their mailboxes. -/
theorem State.mboxNotify_core {s : State} {n : Nat} (h : s.mboxRcv n = 2 ∨ s.mboxRcv n = 3) : s.mboxNotify n = s := by
  rcases h with h | h <;> simp [State.mboxNotify, h, rcvFold]

/-- The vector that tells the host of a mailbox (R509). -/
def mboxVector (n : Nat) : Nat := if n = 66 then 6 else if n = 67 then 7 else n

theorem State.mboxNotify_host {s : State} {n : Nat} (h : s.mboxRcv n = 1) (h16 : 16 ≤ n)
    (hn : n < 64 ∨ n = 66 ∨ n = 67) : s.mboxNotify n = s.raise (mboxVector n) := by
  rcases hn with hn | rfl | rfl
  · simp [State.mboxNotify, h, h16, hn, mboxVector, show n ≠ 66 by omega, show n ≠ 67 by omega]
  · simp [State.mboxNotify, h, mboxVector]
  · simp [State.mboxNotify, h, mboxVector]

theorem rcvFold_of_range {r : Nat} (h : 16 ≤ r) (h' : r ≤ 351) : rcvFold r = some (r - 16) := if_pos ⟨h, h'⟩

theorem State.foldsDown_iff (s : State) : s.foldsDown = true ↔ s.pwr.state = 2 ∨ s.pwr.state = 3 := by
  simp [State.foldsDown]

/-- While the folds are down, a wake source raised is a wake event kept, and nothing else. -/
theorem State.raiseWake_foldsDown {s : State} (down : s.foldsDown = true) (src : Nat) :
    ∃ p, s.raiseWake src = { s with pwr := p } ∧ ∃ t, (src, t) ∈ p.wakes := by
  by_cases old : ∃ t, (src, t) ∈ s.pwr.wakes
  · refine ⟨s.pwr, ?_, old⟩
    have : (s.pwr.wakes.any fun w => decide (w.1 = src)) = true := by simpa using old
    simp [State.raiseWake, this]
  · refine ⟨{ s.pwr with wakes := s.pwr.wakes ++ [(src, s.now)] }, ?_, s.now, by simp⟩
    have : (s.pwr.wakes.any fun w => decide (w.1 = src)) = false := by
      simpa using fun a t h (e : a = src) => old ⟨t, e ▸ h⟩
    simp [State.raiseWake, down, this]

section FoldReceiver
variable {s : State} {n r : Nat} (rcv : s.mboxRcv n = r) (lo : 16 ≤ r) (hi : r ≤ 351)
include rcv lo hi

/-- A fold whose domain is up, and stays up, takes an addition to its event slot. -/
theorem State.mboxNotify_foldUp (notRest : s.pwr.state ≠ 2) (notDeep : s.pwr.state ≠ 3) (stays : s.pwr.entering = none) :
    s.mboxNotify n = s.evtAdd (r - 16) (fld (s.mboxCfg n) 16 6) 1 := by
  have up : s.foldsDown = false := by simp [State.foldsDown, notRest, notDeep]
  have e : s.raiseWake 3 = s := by simp [State.raiseWake, up, stays]
  simp [State.mboxNotify, rcv, show r ≠ 1 by omega, rcvFold_of_range lo hi, up, e]

/-- With the folds down the addition waits and WHISTLE, source 3, is raised (R516, R555). -/
theorem State.mboxNotify_foldDown (down : s.pwr.state = 2 ∨ s.pwr.state = 3) :
    ∃ p, s.mboxNotify n = { s with pwr := p, mbx := { s.mbx with whist := s.mbx.whist ++ [(n, r)] } } ∧
      ∃ t, (3, t) ∈ p.wakes := by
  rw [← State.foldsDown_iff] at down
  obtain ⟨p, e, kept⟩ := State.raiseWake_foldsDown down 3
  refine ⟨p, ?_, kept⟩
  simp [State.mboxNotify, rcv, show r ≠ 1 by omega, rcvFold_of_range lo hi, down, e]

end FoldReceiver

theorem State.evtAdd_grazed {s : State} {f : Nat} (graze : (s.fold f).island.graze = true) (n amt : Nat) :
    s.evtAdd f n amt = s.setFold f { s.fold f with
      island := { (s.fold f).island with held := (s.fold f).island.held ++ [(n, amt)] } } := by
  rw [State.evtAdd, if_pos graze, State.updFold]

/-- An addition to a slot that nothing waits for and that has room. -/
theorem State.evtAdd_one {s : State} {f n : Nat} (awake : (s.fold f).island.graze = false)
    (free : (s.slot f n).waiters = []) (room : (s.slot f n).count < 65535) :
    s.evtAdd f n 1 = s.setSlot f n { s.slot f n with count := (s.slot f n).count + 1 } := by
  have cap : min ((s.slot f n).count + 1) 65535 = (s.slot f n).count + 1 := by omega
  have ovf : ¬ 65535 < (s.slot f n).count + 1 := by omega
  simp [State.evtAdd, awake, State.evtApply, cap, ovf, State.serveSlot, free, State.serve]

/-! ### Reads (R513, R531) -/

theorem State.secPost_nil {s : State} (h : s.sec.replies = []) : s.secPost = s := by
  simp only [State.secPost, h]

section Take
variable {s : State} {n who : Nat}

theorem opTake_other (h : ¬ (mboxOpen n who = true ∧ s.mboxTaker n who = true)) : opTake s who n = s.answerWord 0 := by
  have h' : (!mboxOpen n who || !s.mboxTaker n who) = true := by
    rw [← Bool.not_and, Bool.not_eq_true', ← Bool.not_eq_true, Bool.and_eq_true]
    exact h
  simp [opTake, h']

variable (isOpen : mboxOpen n who = true) (takes : s.mboxTaker n who = true)
include isOpen takes

theorem opTake_receiver (other : ¬ (who = 2 ∧ n = 70)) : opTake s who n = (s.takeMbox n).secPost := by
  simp [opTake, isOpen, takes, other, State.takeMbox]

/-- With no reply of the security core waiting, a take does no more. -/
theorem opTake_noReply (quiet : s.sec.replies = []) (other : ¬ (who = 2 ∧ n = 70)) :
    opTake s who n = s.takeMbox n := by
  rw [opTake_receiver isOpen takes other, State.secPost_nil (s := s.takeMbox n) quiet]

end Take

/-- A read of MBX_STS clears LOST and REFUSED (R531). -/
theorem opMboxSts_open {s : State} {n who : Nat} (h : mboxOpen n who = true) : opMboxSts s who n =
    (s.updMbox n fun b => { b with lost := 0, refused := 0 }).answerWord (s.mbox n).sts := by
  simp [opMboxSts, h]

theorem opMboxSts_shut {s : State} {n who : Nat} (h : ¬ mboxOpen n who = true) : opMboxSts s who n = s.answerWord 0 := by
  simp [opMboxSts, h]

/-! ### Crooks (R518–R520, R532) -/

section Crooks
variable {s : State} {k who : Nat}

theorem opCrookRead_shut (h : ¬ crookOpen k who = true) : opCrookRead s who k = s.answerWord 0 := by
  simp [opCrookRead, h]

theorem opCrookWrite_shut (h : ¬ crookOpen k who = true) (v : W64) : opCrookWrite s who k v = s := by
  simp [opCrookWrite, h]

variable (h : crookOpen k who = true)
include h

theorem opCrookRead_free (agent : agentNo who = true) (free : (s.crook k).owner = 0) :
    opCrookRead s who k = (s.setCrook k { s.crook k with owner := who }).answerWord 0 := by
  simp [opCrookRead, h, agent, free]

theorem opCrookRead_held (agent : agentNo who = true) (held : (s.crook k).owner ≠ 0) :
    opCrookRead s who k = s.answerWord (put 0 12 (s.crook k).owner ||| put 48 16 (s.crook k).ignored) := by
  simp [opCrookRead, h, agent, held]

theorem opCrookWrite_frees {v : W64} (zero : fld v 0 12 = 0) (may : who = (s.crook k).owner ∨ who = 2 ∨ who = 3) :
    opCrookWrite s who k v = s.setCrook k { s.crook k with owner := 0 } := by
  simp [opCrookWrite, h, zero, or_assoc, may, eq_comm (a := (s.crook k).owner)]

theorem opCrookWrite_ignored {v : W64}
    (other : ¬ (fld v 0 12 = 0 ∧ (who = (s.crook k).owner ∨ who = 2 ∨ who = 3))) :
    opCrookWrite s who k v = s.setCrook k { s.crook k with ignored := satAdd 16 (s.crook k).ignored 1 } := by
  simp [opCrookWrite, h, or_assoc, other, eq_comm (a := (s.crook k).owner)]

end Crooks

/-! ### Replies of the security core (R517) -/

/-- The reply channel of the security core is the host's to read. -/
theorem State.mboxRcv_67 (s : State) : s.mboxRcv 67 = 1 := by
  have cfg : s.mboxCfg 67 = put 0 12 1 := rfl
  have agent : ¬ bit (put 0 12 1 : W64) 12 = true := by decide
  simp only [State.mboxRcv, cfg, if_neg agent]
  decide

/-- The oldest reply that waits goes into channel 67 once that is empty, and vector 7 is raised. -/
theorem State.secPost_reply {s : State} {w : W64} {rest : List W64} (waiting : s.sec.replies = w :: rest)
    (empty : (s.mbox 67).full = false) :
    s.secPost = ((s.updSec fun x => { x with replies := rest }).storeMbox 67 3 w).raise 7 := by
  let t := s.updSec fun x => { x with replies := rest }
  have e : s.secPost = (t.mboxWrite 67 3 w).1 := by
    simp only [State.secPost, waiting, empty]
    rfl
  rw [e, State.mboxWrite_stored (s := t) (by decide) (by decide) w (by decide) (.inl (by decide)) empty,
    State.mboxNotify_host (by rw [State.storeMbox_mboxRcv, State.mboxRcv_67]) (by decide) (by decide)]
  rfl

/-! ### The partner's digest (R658) -/

theorem State.stagePeer_unstaged {s : State} (h : s.cfg.staged = none) : s.stagePeer = s := by
  simp only [State.stagePeer, h]

/-- What the shepherd takes from channel 70 is the digest that the partner sent. -/
theorem opTake_digest {s : State} (takes : s.mboxTaker 70 2 = true) : opTake s 2 70 =
    ((s.takeMbox 70).secPost.updCfg fun x => { x with peerWord := some (s.mbox 70).word }).stagePeer := by
  have isOpen : mboxOpen 70 2 = true := rfl
  simp only [opTake, isOpen, takes]
  rfl

/-! ### The obligation -/

section Parts
variable {s : State} {who : Nat} (settled : Settled s) (hub : s.hubOn = true) (up : who = 1 → s.host.ready = true)
include settled hub up

/-- The take of channel 67 makes room for the next reply. -/
theorem exec_mbxTake_reply {w : W64} {rest : List W64} (takes : s.mboxTaker 67 who = true)
    (waiting : s.sec.replies = w :: rest) :
    ∃ s', exec (.mbxTake who 67) s = .next s' ∧ s'.rdata = leBytes 8 (s.mbox 67).word.toNat ∧
      (s'.mbox 67).word = w ∧ (s'.mbox 67).full = true ∧ (s'.mbox 67).sender = 3 ∧ s'.sec.replies = rest := by
  have e : opTake s who 67 = _ := (opTake_receiver rfl takes (by omega)).trans
    (State.secPost_reply (s := s.takeMbox 67) waiting (s.full_takeMbox 67))
  refine ⟨_, exec_mbxTake hub up 67 e (w := (s.mbox 67).word) (State.raise_rdata ..) ((State.raise_due ..).trans settled),
    State.raise_rdata .., ?_⟩
  rw [State.raise_mbox, State.raise_sec, State.mbox_storeMbox]
  exact ⟨rfl, rfl, rfl, rfl⟩

/-- The shepherd's take of the partner's digest, with no change staged that it could complete (R658). -/
theorem exec_mbxTake_digest (who2 : who = 2) (takes : s.mboxTaker 70 who = true) (quiet : s.sec.replies = [])
    (unstaged : s.cfg.staged = none) :
    exec (.mbxTake who 70) s =
      .next { s.takeMbox 70 with cfg := { s.cfg with peerWord := some (s.mbox 70).word } } := by
  subst who2
  have e : opTake s 2 70 = (s.takeMbox 70).updCfg fun x => { x with peerWord := some (s.mbox 70).word } := by
    rw [opTake_digest takes, State.secPost_nil (s := s.takeMbox 70) quiet]
    exact State.stagePeer_unstaged unstaged
  exact exec_mbxTake hub up 70 e (w := (s.mbox 70).word) rfl settled

end Parts

/-- Settles O49: a write is refused, lost or stored by the mailbox's own state, and one stored reaches the receiver that
MBX_CFG names; a take and a crook depend on the reader's agent number alone. -/
theorem mailboxesAndCrooks : Obligations.MailboxesAndCrooks := by
  refine ⟨?_, ?_⟩
  · intro s who n v settled hub up b rcv secure trusted box may used stored puts fold slot vector takes taken
    have may_iff : mboxMay n.val who = true ↔ may := mboxMay_iff n.isLt who
    have open_iff : mboxOpen n.val who = true ↔ (secure → trusted) := mboxOpen_iff n.val who
    have taker_iff : s.mboxTaker n.val who = true ↔ takes := s.mboxTaker_iff n.val who
    refine ⟨fun agent => ⟨fun h => ?_, fun hm hu full => ?_, fun hm hu empty => ?_⟩, fun ho ht quiet => ⟨?_, ?_⟩,
      fun w rest ht h67 waiting => ?_, fun h => ?_, fun ho => ?_, fun ho => ?_⟩
    · exact exec_mbxDataWrite hub up n v (State.mboxWrite_refused n.isLt agent v (by rwa [may_iff])) settled
    · exact exec_mbxDataWrite hub up n v (State.mboxWrite_lost n.isLt agent v (may_iff.mpr hm) hu full) settled
    · let t := s.storeMbox n.val who v
      have sameRcv : t.mboxRcv n.val = rcv := s.storeMbox_mboxRcv ..
      have told : ∀ {t'}, t.mboxNotify n.val = t' → Settled t' → puts = .next t' := fun e =>
        exec_mbxDataWrite hub up n v ((State.mboxWrite_stored n.isLt agent v (may_iff.mpr hm) hu empty).trans e)
      refine ⟨fun core => ?_, fun host h16 hn => ⟨fun unmasked => ?_, fun masked => ?_⟩,
        fun lo hi => ⟨fun rest deep stays awake free room => ?_, fun rest deep stays graze => ?_, fun down => ?_⟩⟩
      · exact told (State.mboxNotify_core (by rwa [sameRcv])) settled
      · exact told ((State.mboxNotify_host (sameRcv.trans host) h16 hn).trans (State.raise_unmasked unmasked)) settled
      · exact told ((State.mboxNotify_host (sameRcv.trans host) h16 hn).trans (State.raise_masked masked)) settled
      · exact told ((State.mboxNotify_foldUp sameRcv lo hi rest deep stays).trans
          (State.evtAdd_one (s := t) awake free room)) settled
      · exact told ((State.mboxNotify_foldUp sameRcv lo hi rest deep stays).trans
          (State.evtAdd_grazed (s := t) graze slot 1)) settled
      · obtain ⟨p, e, kept⟩ := State.mboxNotify_foldDown sameRcv lo hi down
        exact ⟨_, told e settled, rfl, kept, rfl, rfl⟩
    · rw [← open_iff] at ho
      rw [← taker_iff] at ht
      exact fun other => exec_mbxTake hub up n
        (opTake_noReply ho ht quiet other) (w := b.word) rfl settled
    · intro who2 h70 unstaged
      obtain rfl : n = 70 := Fin.ext h70
      exact exec_mbxTake_digest settled hub up who2 (taker_iff.mpr ht) quiet unstaged
    · obtain rfl : n = 67 := Fin.ext h67
      exact exec_mbxTake_reply settled hub up (taker_iff.mpr ht) waiting
    · rw [← open_iff, ← taker_iff] at h
      exact exec_mbxTake hub up n (opTake_other h) rfl settled
    · exact exec_mbxStsRead hub up n (opMboxSts_open (open_iff.mpr ho)) rfl settled
    · exact exec_mbxStsRead hub up n (opMboxSts_shut (by rwa [open_iff])) rfl settled
  · intro s who k v settled hub up c mine
    have open_iff : crookOpen k.val who = true ↔ 8 ≤ k.val ∨ who = 2 ∨ who = 3 ∨ who = 4 := crookOpen_iff k.val who
    refine ⟨fun h => ?_, fun low n2 n3 n4 => ?_⟩
    · rw [← open_iff] at h
      exact ⟨fun free agent => exec_crookRead hub up k (opCrookRead_free h agent free) rfl settled,
        fun held agent => exec_crookRead hub up k (opCrookRead_held h agent held) rfl settled,
        fun zero owns => exec_crookWrite hub up k v (opCrookWrite_frees h zero owns) settled,
        fun other => exec_crookWrite hub up k v (opCrookWrite_ignored h other) settled⟩
    · have shut : ¬ crookOpen k.val who = true := by
        rw [open_iff]
        omega
      exact ⟨exec_crookRead hub up k (opCrookRead_shut shut) rfl settled,
        exec_crookWrite hub up k v (opCrookWrite_shut shut v) settled⟩

end Sys2Proof.Machine
end
